-- ==== Sys2Proof/Word.lean ====
section
/-! DEFINITION. The word types of the register window (spec 00_scope R18, 20_memory R71). -/

namespace Sys2Proof

/-- One byte lane of a bus word, or one character of ARGSTR (R71, R93). -/
abbrev Byte := BitVec 8

/-- One 32-bit register word (R71). -/
abbrev Word := BitVec 32

end Sys2Proof
end

