-- ==== Sys2Proof/Config.lean ====
section
/-! DEFINITION. The implementation parameters of spec 00_scope section 3 and the Protocol Table's record
(40_protocol_table R98). The default VALUES of a build stand in Machine/Tables.lean. The spec leaves no value
that needs an opaque constant: its one unspecified value (10_state R64) is a fault by the spec's own rule. -/

namespace Sys2Proof

/-- TOL_PCT (R9): the relative tolerance of every decoder comparison, in percent. -/
abbrev tolPct : Nat := 20

/-- VALUE_W (R11): the width of a code value, and the largest bit count. -/
abbrev valueW : Nat := 64

/-- MAX_TS_DIGITS (R12): the longest tri-state string, at two bits a digit. -/
abbrev maxTsDigits : Nat := 32

/-- TX_CAP (R15): the longest pulse train, 2 * VALUE_W + 2 entries. -/
abbrev txCap : Nat := 130

/-- One Protocol Table record (R98). Its id is its place in the table, counted from 1, so that the ids are
unique, 1-based and dense by construction (R99). DESIGN CHOICE, log 7: safe. -/
structure Protocol where
  pulseLength : BitVec 16
  syncHigh : BitVec 8
  syncLow : BitVec 8
  zeroHigh : BitVec 8
  zeroLow : BitVec 8
  oneHigh : BitVec 8
  oneLow : BitVec 8
  invertedSignal : Bool
  deriving DecidableEq, Repr

/-- A tri-state digit (R107): the source's closed variant of Zero, One and Floating. -/
inductive Digit where
  | zero
  | one
  | floating
  deriving DecidableEq, Repr

/-- Four tri-state digits in sending order (R125). -/
structure Nibble where
  d0 : Digit
  d1 : Digit
  d2 : Digit
  d3 : Digit
  deriving DecidableEq, Repr

/-- The digit tables of the address adapters: parameters of a build (93 U3, U4), with the tables of R123 and
R125 to R127 as their defaults. -/
structure AdapterTables where
  /-- the digit of a DIP switch character '0' (off) -/
  slideZero : Digit
  /-- the digit of a DIP switch character '1' (on) -/
  slideOne : Digit
  /-- digits 11 and 12 of the sliding scheme for switch on, and for switch off -/
  slideStatusOn : Digit × Digit
  slideStatusOff : Digit × Digit
  /-- Nib(x) of the family schemes, for x = 0 .. 15 -/
  nib : Vector Nibble 16
  /-- digits 9 to 12 of the family schemes for switch on, and for switch off -/
  famStatusOn : Nibble
  famStatusOff : Nibble
  deriving DecidableEq, Repr

/-- The parameters of a build beside its Protocol Table (R10, R13, R14, R17). -/
structure Params where
  /-- BASE: the byte address of the register window (R17, R68) -/
  base : Nat
  /-- MIN_BITS (R10) -/
  minBits : Nat
  /-- MAX_ARG (R13) -/
  maxArg : Nat
  /-- MAX_PULSES (R14) -/
  maxPulses : Nat
  /-- the adapters' digit tables (93 U3, U4) -/
  adapters : AdapterTables
  deriving DecidableEq, Repr

/-- The configuration of one build, constant for its lifetime (R7, R8, R10, R13, R14, R17). -/
structure Config extends Params where
  /-- PROTO_TABLE: the records of ids 1 .. N_PROTO in ascending id (R8, R98) -/
  protoTable : List Protocol
  deriving DecidableEq, Repr

/-- N_PROTO (R7): the number of protocols in the table. -/
def Config.nProto (c : Config) : Nat := c.protoTable.length

end Sys2Proof
end

