-- ==== Sys2Proof/Syntax.lean ====
section
/-! DEFINITION. The instructions: one constructor per row of spec/opcode_table.json (the 13 commands of
30_encoding R90 and the 4 bus operations of R86), the registers they name (20_memory R69), and the access that
carries an instruction to the block. -/

namespace Sys2Proof

/-- A word of the register window (R69), in the order of its offset; `reserved k` is offset 0x64 + 4 k (R70). -/
inductive Reg where
  | cmd
  | status
  | valLo
  | valHi
  | argChar
  | argLen
  | pulseIn
  | pinLen
  | actProto
  | actPlen
  | protoCount
  | lkTiming
  | lkSync
  | lkBits
  | txLen
  | txIdx
  | txData
  | rxProto
  | rxDelay
  | rxBitlen
  | rxValLo
  | rxValHi
  | rxRawlen
  | rxRawIdx
  | rxRawData
  | reserved (k : Fin 7)
  deriving DecidableEq, Repr

/-- One instruction of the block: a command word (R88 to R90) or a bus operation on the window (R86, R151,
R152). Operands are the fields of R89, unsigned and unscaled. -/
inductive Instr where
  /-- R150 -/
  | nop
  /-- R106: `plen = 0` means that no override is given -/
  | setproto (id : BitVec 8) (plen : BitVec 16)
  /-- R103 -/
  | lookup (id : BitVec 8)
  /-- R116 -/
  | sendts
  /-- R117 -/
  | sendval (len : BitVec 7)
  /-- R118 -/
  | sendbin
  /-- R123 -/
  | swslide (on : Bool) (glen : BitVec 4)
  /-- R126 -/
  | swfamdev (on : Bool) (chr : BitVec 8) (dev : BitVec 8)
  /-- R127 -/
  | swfamgrp (on : Bool) (chr : BitVec 8) (grp : BitVec 4) (dev : BitVec 4)
  /-- R141 -/
  | decode
  /-- R129 -/
  | clrpin
  /-- R147 -/
  | resetrx
  /-- R149 -/
  | clrarg
  /-- R128: a bus write to PULSE_IN -/
  | wrPulseIn (w : Word)
  /-- R148: a bus write to ARG_CHAR -/
  | wrArgChar (w : Word)
  /-- R151: a bus read -/
  | busRead (r : Reg)
  /-- R152: a bus write to a register other than CMD, ARG_CHAR and PULSE_IN -/
  | busWrite (r : Reg) (w : Word)
  deriving DecidableEq, Repr

/-- One access the host makes (R21, R73): a read says how many bytes wide it is, a write carries its byte lanes,
lane 0 first (R71). Addresses are byte addresses of the platform (R68). -/
inductive Access where
  | read (addr : Nat) (bytes : Nat)
  | write (addr : Nat) (lanes : List Byte)
  deriving DecidableEq, Repr

/-- The byte address of an access. -/
def Access.addr : Access → Nat
  | .read a _ => a
  | .write a _ => a

/-- The width of an access in bytes. -/
def Access.width : Access → Nat
  | .read _ n => n
  | .write _ lanes => lanes.length

end Sys2Proof
end

