-- ==== Sys2Proof/WellFormed.lean ====
section
/-! DEFINITION. What a well-formed instruction and protocol record is, and the ranges of a build's parameters. -/

namespace Sys2Proof

/-- Writes to CMD, ARG_CHAR and PULSE_IN are rows of their own, so BUS_WRITE names none of the three (R152 and
its row of the opcode table). Every other operand is as wide as its field (R88). -/
def Instr.wellFormed : Instr → Bool
  | .busWrite r _ => r != .cmd && r != .argChar && r != .pulseIn
  | .nop | .setproto _ _ | .lookup _ | .sendts | .sendval _ | .sendbin | .swslide _ _ | .swfamdev _ _ _
  | .swfamgrp _ _ _ _ | .decode | .clrpin | .resetrx | .clrarg | .wrPulseIn _ | .wrArgChar _ | .busRead _ => true

/-- R99: the pulse length and all six multiples are positive. -/
def Protocol.wf (r : Protocol) : Bool :=
  r.pulseLength != 0#16 && r.syncHigh != 0#8 && r.syncLow != 0#8 && r.zeroHigh != 0#8 && r.zeroLow != 0#8 &&
    r.oneHigh != 0#8 && r.oneLow != 0#8

/-- R101: the values of protocol 1 that every table keeps. Its one pair is left to `Config.fixtureDecodes`. -/
def Protocol.keepsFixture (r : Protocol) : Bool :=
  r.pulseLength == 350#16 && r.zeroHigh == 1#8 && r.zeroLow == 3#8 && r.syncHigh == 1#8 && r.syncLow == 31#8 &&
    !r.invertedSignal

/-- A build's parameters are in the ranges of R7, R10, R13, R14 and R68, every record is one R99 allows, and record 1
has the values that R101 lists. `Config.wf` in Machine/Build.lean adds R101's condition on the one pair, which takes
the decoder to say. -/
def Config.rangesOk (c : Config) : Bool :=
  c.base % 128 == 0 && decide (1 ≤ c.nProto) && decide (c.nProto ≤ 255) && decide (1 ≤ c.minBits) &&
    decide (c.minBits ≤ 64) && decide (64 ≤ c.maxArg) && decide (c.maxArg ≤ 65535) &&
    decide (130 ≤ c.maxPulses) && decide (c.maxPulses ≤ 65535) && c.protoTable.all Protocol.wf &&
    (c.protoTable.head?.all Protocol.keepsFixture)

end Sys2Proof
end

