-- ==== Sys2Proof/Decode.lean ====
section
/-! DEFINITION. The decoder, total on any access and any command word, and the encoder, both written from the
tables of spec 30_encoding (R88 to R91) and 20_memory (R69, R71, R73). -/

namespace Sys2Proof

/-! ## Fields, byte lanes and offsets -/

/-- A field of a 32-bit word: the value v with its bit 0 at bit `lo` (R18). -/
def place {n : Nat} (v : BitVec n) (lo : Nat) : Word := v.setWidth 32 <<< lo

/-- A field of one bit (R18). -/
def placeBit (b : Bool) (lo : Nat) : Word := place (BitVec.ofBool b) lo

/-- The four byte lanes of a register word: lane k is bits 8k+7 .. 8k (R71). -/
def toLanes (w : Word) : List Byte :=
  [w.extractLsb' 0 8, w.extractLsb' 8 8, w.extractLsb' 16 8, w.extractLsb' 24 8]

/-- The register word that four byte lanes carry; any other number of lanes is no 32-bit access (R71, R73). -/
def ofLanes : List Byte → Option Word
  | [b0, b1, b2, b3] => some (place b3 24 ||| place b2 16 ||| place b1 8 ||| place b0 0)
  | _ => none

/-- The place of a register in the window, in words: its offset divided by 4 (R69, R70). -/
def Reg.index : Reg → Nat
  | .cmd => 0
  | .status => 1
  | .valLo => 2
  | .valHi => 3
  | .argChar => 4
  | .argLen => 5
  | .pulseIn => 6
  | .pinLen => 7
  | .actProto => 8
  | .actPlen => 9
  | .protoCount => 10
  | .lkTiming => 11
  | .lkSync => 12
  | .lkBits => 13
  | .txLen => 14
  | .txIdx => 15
  | .txData => 16
  | .rxProto => 17
  | .rxDelay => 18
  | .rxBitlen => 19
  | .rxValLo => 20
  | .rxValHi => 21
  | .rxRawlen => 22
  | .rxRawIdx => 23
  | .rxRawData => 24
  | .reserved k => 25 + k.val

/-- The byte offset of a register in the window (R69). -/
def Reg.offset (r : Reg) : Nat := 4 * r.index

/-- The register map of R69 and R70, the word at offset 0x00 first. -/
def regMap : List Reg :=
  [.cmd, .status, .valLo, .valHi, .argChar, .argLen, .pulseIn, .pinLen, .actProto, .actPlen, .protoCount,
    .lkTiming, .lkSync, .lkBits, .txLen, .txIdx, .txData, .rxProto, .rxDelay, .rxBitlen, .rxValLo, .rxValHi,
    .rxRawlen, .rxRawIdx, .rxRawData, .reserved 0, .reserved 1, .reserved 2, .reserved 3, .reserved 4,
    .reserved 5, .reserved 6]

/-! ## Command words -/

/-- One row of R90: the opcode's match and mask, and the command a selected word stands for (fields of R89). -/
structure CmdRow where
  pattern : Word
  mask : Word
  build : Word → Instr

/-- R90's table of match and mask, with the fields of R88 and R89. -/
def cmdRows : List CmdRow :=
  [⟨0x00000000#32, 0xFFFFFFFF#32, fun _ => .nop⟩,
   ⟨0x00000001#32, 0x000000FF#32, fun w => .setproto (w.extractLsb' 8 8) (w.extractLsb' 16 16)⟩,
   ⟨0x00000002#32, 0xFFFF00FF#32, fun w => .lookup (w.extractLsb' 8 8)⟩,
   ⟨0x00000010#32, 0xFFFFFFFF#32, fun _ => .sendts⟩,
   ⟨0x00000011#32, 0xFFFF80FF#32, fun w => .sendval (w.extractLsb' 8 7)⟩,
   ⟨0x00000012#32, 0xFFFFFFFF#32, fun _ => .sendbin⟩,
   ⟨0x00000020#32, 0xFFF0FEFF#32, fun w => .swslide (w.getLsbD 8) (w.extractLsb' 16 4)⟩,
   ⟨0x00000021#32, 0x0000FEFF#32, fun w =>
      .swfamdev (w.getLsbD 8) (w.extractLsb' 16 8) (w.extractLsb' 24 8)⟩,
   ⟨0x00000022#32, 0x0000FEFF#32, fun w =>
      .swfamgrp (w.getLsbD 8) (w.extractLsb' 16 8) (w.extractLsb' 24 4) (w.extractLsb' 28 4)⟩,
   ⟨0x00000030#32, 0xFFFFFFFF#32, fun _ => .decode⟩,
   ⟨0x00000031#32, 0xFFFFFFFF#32, fun _ => .clrpin⟩,
   ⟨0x00000032#32, 0xFFFFFFFF#32, fun _ => .resetrx⟩,
   ⟨0x00000040#32, 0xFFFFFFFF#32, fun _ => .clrarg⟩]

/-- The command of the first row that selects the word: (w AND mask) = match (R90). -/
def decodeRows (w : Word) : List CmdRow → Option Instr
  | [] => none
  | row :: rows => if w &&& row.mask = row.pattern then some (row.build w) else decodeRows w rows

/-- The command a word encodes, or none: then the word is illegal (R91). -/
def decodeCmd (w : Word) : Option Instr := decodeRows w cmdRows

/-! ## Accesses -/

/-- Why an access carries no instruction. -/
inductive Reject where
  /-- the address is outside BASE .. BASE+0x7F: the access is not for this block (R68, R77) -/
  | outsideWindow
  /-- the access is not 32 bits wide (R73) -/
  | badWidth
  /-- the offset is not a multiple of 4 (R73) -/
  | misaligned
  /-- a CMD write whose word is no command (R91) -/
  | illegalCommand
  deriving DecidableEq, Repr

/-- What the decoder answers. -/
inductive Decoded where
  | instr (i : Instr)
  | reject (r : Reject)
  deriving DecidableEq, Repr

/-- The register at an address, where a 32-bit access reaches one (R68, R69, R73). An access that crosses an edge of
the window goes by its first byte: one that starts below BASE and reaches into the window is outside it, one that starts
inside and runs past its end is too wide. DESIGN CHOICE, log 22: safe. -/
def locate (base addr width : Nat) : Except Reject Reg :=
  if addr < base ∨ base + 128 ≤ addr then .error .outsideWindow
  else if width ≠ 4 then .error .badWidth
  else if (addr - base) % 4 ≠ 0 then .error .misaligned
  else
    match regMap[(addr - base) / 4]? with
    | some r => .ok r
    | none => .error .outsideWindow

/-- The bus operation that a write of `w` to a register is (R86, R152). -/
def decodeWrite (r : Reg) (w : Word) : Decoded :=
  match r with
  | .cmd =>
    match decodeCmd w with
    | some i => .instr i
    | none => .reject .illegalCommand
  | .argChar => .instr (.wrArgChar w)
  | .pulseIn => .instr (.wrPulseIn w)
  | r => .instr (.busWrite r w)

/-- The decoder: the instruction an access carries to the block whose window is at `base` (R86). -/
def decode (base : Nat) (a : Access) : Decoded :=
  match locate base a.addr a.width with
  | .error e => .reject e
  | .ok r =>
    match a with
    | .read _ _ => .instr (.busRead r)
    | .write _ lanes =>
      match ofLanes lanes with
      | some w => decodeWrite r w
      | none => .reject .badWidth

/-! ## The encoder -/

/-- A format N word: the opcode in bits 7:0 (R87, R88). -/
def wordN (opc : Byte) : Word := place opc 0

/-- The command word of a command, in its format of R88; bus operations have none. -/
def encodeCmd : Instr → Option Word
  | .nop => some (wordN 0x00#8)
  | .setproto id plen => some (place plen 16 ||| place id 8 ||| wordN 0x01#8)
  | .lookup id => some (place id 8 ||| wordN 0x02#8)
  | .sendts => some (wordN 0x10#8)
  | .sendval len => some (place len 8 ||| wordN 0x11#8)
  | .sendbin => some (wordN 0x12#8)
  | .swslide on glen => some (place glen 16 ||| placeBit on 8 ||| wordN 0x20#8)
  | .swfamdev on chr dev => some (place dev 24 ||| place chr 16 ||| placeBit on 8 ||| wordN 0x21#8)
  | .swfamgrp on chr grp dev => 
    some (place dev 28 ||| place grp 24 ||| place chr 16 ||| placeBit on 8 ||| wordN 0x22#8)
  | .decode => some (wordN 0x30#8)
  | .clrpin => some (wordN 0x31#8)
  | .resetrx => some (wordN 0x32#8)
  | .clrarg => some (wordN 0x40#8)
  | .wrPulseIn _ | .wrArgChar _ | .busRead _ | .busWrite _ _ => none

/-- A 32-bit write of `w` to a register of the window at `base` (R21, R71). -/
def writeAccess (base : Nat) (r : Reg) (w : Word) : Access := .write (base + r.offset) (toLanes w)

/-- A 32-bit read of a register of the window at `base` (R21). -/
def readAccess (base : Nat) (r : Reg) : Access := .read (base + r.offset) 4

/-- The encoder: the access that carries an instruction (R86). -/
def encode (base : Nat) (i : Instr) : Access :=
  match i with
  | .wrPulseIn w => writeAccess base .pulseIn w
  | .wrArgChar w => writeAccess base .argChar w
  | .busRead r => readAccess base r
  | .busWrite r w => writeAccess base r w
  | i => writeAccess base .cmd ((encodeCmd i).getD 0#32)

/-! ## The opcode table's numbering -/

/-- The bus operation that the offset alone gives: a write of 0 to ARG_CHAR or PULSE_IN, the two rows of
spec/opcode_table.json that are writes of one offset, else a read (log 12: the rows of BUS_READ and BUS_WRITE
have the same bits). -/
def busRowAccess (base off : Nat) : Access :=
  if off = 0x10 ∨ off = 0x18 then .write (base + off) (toLanes 0#32) else .read (base + off) 4

/-- The access that the bits of a row of spec/opcode_table.json stand for. A command row's bits are the data word
of a CMD write, a bus row's bits are the window offset, 7 bits wide (R86). Bits that fit one byte and are a
multiple of 4, and small words that no command row matches, are read as an offset. DESIGN CHOICE, log 12. -/
def tableAccess (base nbits w : Nat) : Access :=
  let v := w % 2 ^ nbits
  if (nbits ≤ 8 ∨ decodeCmd (BitVec.ofNat 32 v) = none) ∧ v % 4 = 0 ∧ v < 128 then busRowAccess base v
  else writeAccess base .cmd (BitVec.ofNat 32 v)

/-- The instruction the decoder reads from bits numbered as spec/opcode_table.json numbers them. -/
def decodeTableWord (nbits w : Nat) : Option Instr :=
  match decode 0 (tableAccess 0 nbits w) with
  | .instr i => some i
  | .reject _ => none

end Sys2Proof
end

