-- ==== Sys2Proof/Machine/Tables.lean ====
section
/-! DEFINITION. The default build: the Protocol Table of spec 40_protocol_table R102, the digit tables of
42_address_adapters R123 and R125 to R127, and the default parameters of 00_scope section 3. -/

namespace Sys2Proof.Machine

/-- The default PROTO_TABLE (R102), ids 1 to 12. The spec itself marks it as general knowledge (93 G1, G2).
PRESUMED, log 2. -/
def defaultProtoTable : List Protocol :=
  [⟨350#16, 1#8, 31#8, 1#8, 3#8, 3#8, 1#8, false⟩,
   ⟨650#16, 1#8, 10#8, 1#8, 2#8, 2#8, 1#8, false⟩,
   ⟨100#16, 30#8, 71#8, 4#8, 11#8, 9#8, 6#8, false⟩,
   ⟨380#16, 1#8, 6#8, 1#8, 3#8, 3#8, 1#8, false⟩,
   ⟨500#16, 6#8, 14#8, 1#8, 2#8, 2#8, 1#8, false⟩,
   ⟨450#16, 23#8, 1#8, 1#8, 2#8, 2#8, 1#8, true⟩,
   ⟨150#16, 2#8, 62#8, 1#8, 6#8, 6#8, 1#8, false⟩,
   ⟨200#16, 3#8, 130#8, 7#8, 16#8, 3#8, 16#8, false⟩,
   ⟨200#16, 130#8, 7#8, 16#8, 7#8, 16#8, 3#8, true⟩,
   ⟨365#16, 18#8, 1#8, 3#8, 1#8, 1#8, 3#8, true⟩,
   ⟨270#16, 36#8, 1#8, 1#8, 2#8, 2#8, 1#8, true⟩,
   ⟨320#16, 36#8, 1#8, 1#8, 2#8, 2#8, 1#8, true⟩]

/-- Nib(x) of R125: digit j is F when bit j of x is 1 and 0 when it is 0, least significant bit first. -/
def nibbleOf (x : Nat) : Nibble :=
  let digit (j : Nat) : Digit := if x.testBit j then .floating else .zero
  ⟨digit 0, digit 1, digit 2, digit 3⟩

/-- The digit tables of R123 and R125 to R127. The spec itself marks them as general knowledge (93 G3, G4).
PRESUMED, log 9. -/
def defaultAdapters : AdapterTables where
  slideZero := .floating
  slideOne := .zero
  slideStatusOn := (.zero, .floating)
  slideStatusOff := (.floating, .zero)
  nib := #v[nibbleOf 0, nibbleOf 1, nibbleOf 2, nibbleOf 3, nibbleOf 4, nibbleOf 5, nibbleOf 6, nibbleOf 7,
    nibbleOf 8, nibbleOf 9, nibbleOf 10, nibbleOf 11, nibbleOf 12, nibbleOf 13, nibbleOf 14, nibbleOf 15]
  famStatusOn := ⟨.zero, .floating, .floating, .floating⟩
  famStatusOff := ⟨.zero, .floating, .floating, .zero⟩

/-- The default build (R7, R8, R10, R13, R14). BASE is OPEN in the spec (R17): DESIGN CHOICE 0, log 3. -/
def defaultConfig : Config where
  base := 0
  protoTable := defaultProtoTable
  minBits := 4
  maxArg := 64
  maxPulses := 256
  adapters := defaultAdapters

end Sys2Proof.Machine
end

