-- ==== Sys2Proof/Machine/State.lean ====
section
/-! DEFINITION. The state of the block (spec 10_state R28), the host's side of the bus, the reasons a step can
stop, and the state after reset (70_reset_and_hazards R168). -/

namespace Sys2Proof.Machine

/-- The result codes of STATUS.ERR (R154). Codes 7 .. 15 are never written, so none stands here (93 U13). -/
inductive ErrCode where
  | ok
  | unknownProtocol
  | invalidAddress
  | emptyCode
  | noProtocolMatched
  | pulseOverflow
  | illegalCommand
  deriving DecidableEq, Repr

/-- One entry of TXBUF (R60): the level, true for high, and the duration in microseconds. -/
structure TxEntry where
  level : Bool
  duration : BitVec 24
  deriving DecidableEq, Repr

/-- The Receiver State while it is valid (R61). -/
structure RxResult where
  proto : BitVec 8
  delay : BitVec 32
  bitlen : BitVec 7
  value : BitVec 64
  raw : List (BitVec 32)
  deriving DecidableEq, Repr

/-- What reaches the block from outside, one event at a time (R79): an access, or the hardware reset, which may
abandon the access then executing (R167, R169). -/
inductive BusEvent where
  | access (a : Access)
  | reset (abandoned : Option Access)
  deriving DecidableEq, Repr

/-- The block's response to the access served last: none yet, acknowledged (R80), or the word of a read (R151). -/
inductive Response where
  | idle
  | ack
  | data (w : Word)
  deriving DecidableEq, Repr

/-- The complete state of the block: exactly the fields of R28's record. -/
structure Codec where
  /-- STATUS.ERR (R31) -/
  err : ErrCode
  /-- STATUS.POVF (R33) -/
  povf : Bool
  /-- STATUS.AOVF (R34) -/
  aovf : Bool
  /-- VAL_LO (R35) -/
  valLo : Word
  /-- VAL_HI (R36) -/
  valHi : Word
  /-- ARGSTR (R58) -/
  argstr : List Byte
  /-- PIN (R59) -/
  pin : List (BitVec 32)
  /-- ACT_PROTO (R41) -/
  actProto : BitVec 8
  /-- ACT_PLEN (R42) -/
  actPlen : BitVec 16
  /-- LK_TIMING (R44) -/
  lkTiming : Word
  /-- LK_SYNC (R45) -/
  lkSync : Word
  /-- LK_BITS (R46) -/
  lkBits : Word
  /-- TXBUF (R60) -/
  txbuf : List TxEntry
  /-- TX_IDX (R48) -/
  txIdx : BitVec 16
  /-- RX (R61): none while RX.valid = 0, when the spec says a model holds no value for its other fields
  (93 U2). The option is RX.valid, the spec's own state. DEDUCED, log 4: safe. -/
  rx : Option RxResult
  /-- RX_RAW_IDX (R56) -/
  rxRawIdx : BitVec 16
  /-- ROM (R62): the Protocol Table, the record of id 1 first -/
  rom : List Protocol
  deriving DecidableEq, Repr

/-- The machine: the block, whose state is R28's record alone (`toCodec`), and beside it what a step needs from
outside the block, the build's parameters and the host's side of the bus. -/
structure State extends Codec where
  /-- the parameters of the build, which R28 does not count as state (R9 to R17). DESIGN CHOICE, log 2 -/
  params : Params
  /-- the model's own: the events not served yet, oldest first (R79). DESIGN CHOICE, log 1 -/
  inbox : List BusEvent
  /-- the model's own: the response to the access served last (R80, R151). DESIGN CHOICE, log 1 -/
  resp : Response
  deriving DecidableEq, Repr

/-- The build that a machine is of: its parameters, and its ROM as the table (R8, R62). -/
abbrev State.cfg (s : State) : Config := { toParams := s.params, protoTable := s.rom }

/-- Why the machine stops with a fault. -/
inductive Fault where
  /-- A refused access gets a bus error, and a refused read returns 0 with it; a model treats it as a fault of
  the issuing program (R73, R74, 93 U10). Raised by the bus port for a wrong width or a misaligned offset.
  Safe: the hardware goes on with its state unchanged. -/
  | busError (why : Reject) (readData : Option Word)
  /-- An access outside the register window is not for this block (R68, R77). Raised by the bus port. Safe. -/
  | outsideWindow
  /-- A read of an RX view while RX.valid = 0 has an unspecified value, and a model treats it as a fault of the
  reading program (R64, R151, 93 U1). Raised by BUS_READ. Safe: the hardware returns some word and goes on. -/
  | rxInvalidRead (r : Reg)
  /-- ACT_PROTO names no record of ROM, which no run reaches (R41, R65). Raised by the encoder. Safe. -/
  | actProtoOutsideTable
  deriving DecidableEq, Repr

/-- Why the machine gives an instruction no meaning. -/
inductive Refusal where
  /-- The instruction has no meaning yet. Raised by `exec` alone. Safe. -/
  | notModelled (mnemonic : String)
  /-- A BUS_WRITE term that names CMD, which the decoder never gives: a CMD write is a command (R152). Raised by
  BUS_WRITE. Safe. -/
  | illFormed
  deriving DecidableEq, Repr

/-- The outcome of one step. -/
abbrev Result := Host.Outcome State Fault Refusal

/-- Every state element of a build takes the value of R168. ACT_PLEN is ROM[1].pulseLength; the bus is idle. -/
def State.resetOf (c : Config) : State where
  err := .ok
  povf := false
  aovf := false
  valLo := 0#32
  valHi := 0#32
  argstr := []
  pin := []
  actProto := 1#8
  actPlen := (c.protoTable.head?.map Protocol.pulseLength).getD 1#16
  lkTiming := 0#32
  lkSync := 0#32
  lkBits := 0#32
  txbuf := []
  txIdx := 0#16
  rx := none
  rxRawIdx := 0#16
  rom := c.protoTable
  params := c.toParams
  inbox := []
  resp := .idle

/-- The default build right after reset (R168), with no access waiting. -/
def State.reset : State := State.resetOf defaultConfig

end Sys2Proof.Machine
end

