-- ==== Sys2Proof/Machine/Flags.lean ====
section
/-! DEFINITION. STATUS and its flags (spec 10_state R30 to R34, R66; 60_exceptions R154). -/

namespace Sys2Proof.Machine

/-- The 4-bit code of a result (R154). -/
def ErrCode.code : ErrCode → BitVec 4
  | .ok => 0#4
  | .unknownProtocol => 1#4
  | .invalidAddress => 2#4
  | .emptyCode => 3#4
  | .noProtocolMatched => 4#4
  | .pulseOverflow => 5#4
  | .illegalCommand => 6#4

/-- RX.valid, which STATUS.RXV shows (R32, R61). -/
def State.rxValid (s : State) : Bool := s.rx.isSome

/-- The STATUS word (R30, R151): ERR in bits 3:0, RXV in bit 4, POVF in bit 5, AOVF in bit 6, the rest 0. -/
def State.statusWord (s : State) : Word :=
  placeBit s.aovf 6 ||| placeBit s.povf 5 ||| placeBit s.rxValid 4 ||| place s.err.code 0

/-- Write STATUS.ERR, as every command does once, last (R31, R155). -/
def State.setErr (s : State) (e : ErrCode) : State := { s with err := e }

/-- STATUS.AOVF <- 1: a push found ARGSTR full (R34, R148). -/
def State.setAovf (s : State) : State := { s with aovf := true }

/-- STATUS.POVF <- 1: a push found PIN full (R33, R128). -/
def State.setPovf (s : State) : State := { s with povf := true }

end Sys2Proof.Machine
end

