-- ==== Sys2Proof/Machine/Operands.lean ====
section
/-! DEFINITION. The operand forms: ROM lookup (spec 40_protocol_table R98), VAL, ARGSTR and PIN as consumed operands
(41_encoder R114, 43_decoder R141), bit patterns (00_scope R19) and tri-state digits (41_encoder R107, R108). -/

namespace Sys2Proof.Machine

/-- ROM[id], where id is in 1..N_PROTO (R98); the bound check of R103 and R106 is that a record is there. -/
def romAt (table : List Protocol) (id : BitVec 8) : Option Protocol :=
  if id = 0#8 then none else table[id.toNat - 1]?

/-- ROM[ACT_PROTO], the record the encoder uses (R109). -/
def State.activeRecord (s : State) : Option Protocol := romAt s.rom s.actProto

/-- VAL = (VAL_HI << 32) | VAL_LO (R35, R36, R117). -/
def State.val (s : State) : BitVec 64 := (s.valHi.setWidth 64 <<< 32) ||| s.valLo.setWidth 64

/-- ARGSTR <- [] and STATUS.AOVF <- 0 (R114, R149). -/
def State.clearArg (s : State) : State := { s with argstr := [], aovf := false }

/-- PIN <- [] and STATUS.POVF <- 0 (R129, R141). -/
def State.clearPin (s : State) : State := { s with pin := [], povf := false }

/-! ## Characters (R23, R93) -/

/-- '0' -/
def char0 : Byte := 0x30#8

/-- '1' -/
def char1 : Byte := 0x31#8

/-- 'F' -/
def charF : Byte := 0x46#8

/-- Digit(c): the tri-state digit of a character, where it is one (R107). -/
def digitOf (c : Byte) : Option Digit :=
  if c = char0 then some .zero
  else if c = char1 then some .one
  else if c = charF then some .floating
  else none

/-- The bit of a binary character, where it is one (R118, R123). -/
def bitOf (c : Byte) : Option Bool :=
  if c = char0 then some false
  else if c = char1 then some true
  else none

/-- Every character read by `f`, or none if one of them is malformed (R116, R118, R123). -/
def readAll {α : Type} (f : Byte → Option α) : List Byte → Option (List α)
  | [] => some []
  | c :: cs =>
    match f c, readAll f cs with
    | some x, some xs => some (x :: xs)
    | _, _ => none

/-! ## Bit patterns -/

/-- The two bits of a tri-state digit, most significant first (R108). -/
def digitBits : Digit → List Bool
  | .zero => [false, false]
  | .one => [true, true]
  | .floating => [false, true]

/-- Dibits(s): the bit pairs of the digits, in order (R108). -/
def dibits (ds : List Digit) : List Bool := ds.flatMap digitBits

/-- BitsToNat(b): the sum of b[i] * 2^(len(b)-1-i) (R19). -/
def bitsToNat : List Bool → Nat
  | [] => 0
  | b :: bs => b.toNat * 2 ^ bs.length + bitsToNat bs

/-- NatToBits(v, n): the n-bit binary expansion of v, most significant bit first (R19). -/
def natToBits (v : Nat) : Nat → List Bool
  | 0 => []
  | n + 1 => v.testBit n :: natToBits v n

/-- The four digits of a nibble, in order (R125). -/
def nibbleDigits (n : Nibble) : List Digit := [n.d0, n.d1, n.d2, n.d3]

end Sys2Proof.Machine
end

