-- ==== Sys2Proof/Machine/Ops.lean ====
section
/-! DEFINITION. The shared operations: how a command ends (spec 00_scope R22, 41_encoder R113, 60_exceptions R155;
they stand where a processor has exception entry and return, which this block has not, R159), the pulse-train
encoder (41_encoder R109 to R111), the push ports (R128, R148), and the register window (44_receiver R151, R152). -/

namespace Sys2Proof.Machine

/-! ## How a command ends -/

/-- `succeed`: STATUS.ERR <- 0, and the command is complete (R22). -/
def succeed (s : State) : Result := .next (s.setErr .ok)

/-- `fail(E)`: STATUS.ERR <- code(E), and the command is complete (R22). -/
def fail (e : ErrCode) (s : State) : Result := .next (s.setErr e)

/-- TXBUF <- the given train (R110, R113). -/
def State.setTxbuf (s : State) (t : List TxEntry) : State := { s with txbuf := t }

/-- `EncFail(E)`: TXBUF <- [], then fail(E) (R113). -/
def encFail (e : ErrCode) (s : State) : Result := fail e (s.setTxbuf [])

/-! ## The encoder -/

/-- The pulse pair of one bit at pulse length L (R109). -/
def bitPulses (r : Protocol) (L : Nat) (b : Bool) : List Nat :=
  if b then [r.oneHigh.toNat * L, r.oneLow.toNat * L] else [r.zeroHigh.toNat * L, r.zeroLow.toNat * L]

/-- The durations of the train of a bit pattern: the pair of each bit, then the sync pair once (R110). -/
def trainDurations (r : Protocol) (L : Nat) (bits : List Bool) : List Nat :=
  bits.flatMap (bitPulses r L) ++ [r.syncHigh.toNat * L, r.syncLow.toNat * L]

/-- The train of a bit pattern: entry k has level (1 if k is even else 0) XOR invertedSignal (R110, R111). -/
def pulseTrain (r : Protocol) (L : Nat) (bits : List Bool) : List TxEntry :=
  (trainDurations r L bits).zipIdx.map fun (d, k) =>
    ⟨Bool.xor (k % 2 == 0) r.invertedSignal, BitVec.ofNat 24 d⟩

/-- `EncodeBits(b)` with the active protocol, then `succeed` (R110). The fault is in states no run reaches
(R65): DESIGN CHOICE, log 8. -/
def encodeBits (bits : List Bool) (s : State) : Result :=
  match s.activeRecord with
  | some r => succeed (s.setTxbuf (pulseTrain r s.actPlen.toNat bits))
  | none => .fault .actProtoOutsideTable

/-! ## The push ports -/

/-- ARGSTR <- ARGSTR ++ [c] (R148). -/
def State.appendArg (s : State) (c : Byte) : State := { s with argstr := s.argstr ++ [c] }

/-- PIN <- PIN ++ [d] (R128). -/
def State.appendPin (s : State) (d : BitVec 32) : State := { s with pin := s.pin ++ [d] }

/-- An ARG_CHAR write: push the byte, or set AOVF if ARGSTR is full (R148). -/
def pushArg (c : Byte) (s : State) : State :=
  if s.argstr.length < s.params.maxArg then s.appendArg c else s.setAovf

/-- A PULSE_IN write: push the duration, or set POVF if PIN is full (R128). -/
def pushPulse (d : BitVec 32) (s : State) : State :=
  if s.pin.length < s.params.maxPulses then s.appendPin d else s.setPovf

/-! ## The register window -/

/-- A TX_DATA word: bit 31 the level, bits 30:24 zero, bits 23:0 the duration (R49, R94). -/
def txWord (e : TxEntry) : Word := placeBit e.level 31 ||| place e.duration 0

/-- TX_DATA: the entry at TX_IDX, or 0 at or past the end of TXBUF (R49, R153). -/
def State.txData (s : State) : Word :=
  match s.txbuf[s.txIdx.toNat]? with
  | some e => txWord e
  | none => 0#32

/-- A length in bits 15:0 of a word (R38, R40, R47, R55). -/
def lenWord (n : Nat) : Word := place (BitVec.ofNat 16 n) 0

/-- RX_RAW_DATA of a valid result: the duration at RX_RAW_IDX, or 0 at or past the end (R57, R153). -/
def rawData (x : RxResult) (idx : BitVec 16) : Word := (x.raw[idx.toNat]?).getD 0#32

/-- Is the register a view of RX, unspecified while RX.valid = 0 (R64)? -/
def isRxView : Reg → Bool
  | .rxProto | .rxDelay | .rxBitlen | .rxValLo | .rxValHi | .rxRawlen | .rxRawData => true
  | .cmd | .status | .valLo | .valHi | .argChar | .argLen | .pulseIn | .pinLen | .actProto | .actPlen
  | .protoCount | .lkTiming | .lkSync | .lkBits | .txLen | .txIdx | .txData | .rxRawIdx | .reserved _ => false

/-- What a 32-bit read of a register returns (R151, each register's rule R29 to R57); none where the value is
unspecified, a view of RX while RX.valid = 0 (R64). Write-only and reserved words read as 0 (R70). -/
def State.readReg (s : State) : Reg → Option Word
  | .cmd | .argChar | .pulseIn | .reserved _ => some 0#32
  | .status => some s.statusWord
  | .valLo => some s.valLo
  | .valHi => some s.valHi
  | .argLen => some (lenWord s.argstr.length)
  | .pinLen => some (lenWord s.pin.length)
  | .actProto => some (place s.actProto 0)
  | .actPlen => some (place s.actPlen 0)
  | .protoCount => some (place (BitVec.ofNat 8 s.rom.length) 0)
  | .lkTiming => some s.lkTiming
  | .lkSync => some s.lkSync
  | .lkBits => some s.lkBits
  | .txLen => some (lenWord s.txbuf.length)
  | .txIdx => some (place s.txIdx 0)
  | .txData => some s.txData
  | .rxRawIdx => some (place s.rxRawIdx 0)
  | .rxProto => s.rx.map fun x => place x.proto 0
  | .rxDelay => s.rx.map fun x => x.delay
  | .rxBitlen => s.rx.map fun x => place x.bitlen 0
  | .rxValLo => s.rx.map fun x => x.value.extractLsb' 0 32
  | .rxValHi => s.rx.map fun x => x.value.extractLsb' 32 32
  | .rxRawlen => s.rx.map fun x => lenWord x.raw.length
  | .rxRawData => s.rx.map fun x => rawData x s.rxRawIdx

/-- VAL[31:0] <- w (R152). -/
def State.setValLo (s : State) (w : Word) : State := { s with valLo := w }

/-- VAL[63:32] <- w (R152). -/
def State.setValHi (s : State) (w : Word) : State := { s with valHi := w }

/-- TX_IDX <- i (R48). -/
def State.setTxIdx (s : State) (i : BitVec 16) : State := { s with txIdx := i }

/-- RX_RAW_IDX <- i (R56). -/
def State.setRxRawIdx (s : State) (i : BitVec 16) : State := { s with rxRawIdx := i }

/-- The response line carries the word of a read (R151). -/
def State.setResp (s : State) (p : Response) : State := { s with resp := p }

/-- What a 32-bit write of w to a register stores, for every register but CMD (R152); every other offset ignores
the write (R70). -/
def State.writeReg (s : State) (r : Reg) (w : Word) : State :=
  match r with
  | .valLo => s.setValLo w
  | .valHi => s.setValHi w
  | .argChar => pushArg (w.extractLsb' 0 8) s
  | .pulseIn => pushPulse w s
  | .txIdx => s.setTxIdx (w.extractLsb' 0 16)
  | .rxRawIdx => s.setRxRawIdx (w.extractLsb' 0 16)
  | .cmd | .status | .argLen | .pinLen | .actProto | .actPlen | .protoCount | .lkTiming | .lkSync | .lkBits
  | .txLen | .txData | .rxProto | .rxDelay | .rxBitlen | .rxValLo | .rxValHi | .rxRawlen | .rxRawData
  | .reserved _ => s

end Sys2Proof.Machine
end

