-- ==== Sys2Proof/Machine/Adapters.lean ====
section
/-! DEFINITION. SWSLIDE, SWFAMDEV and SWFAMGRP (spec 42_address_adapters), over the build's digit tables. -/

namespace Sys2Proof.Machine

/-- The 12 digits of the sliding scheme: one per switch, group then device, then the two status digits
(R122, R123). -/
def slideDigits (t : AdapterTables) (on : Bool) (switches : List Bool) : List Digit :=
  let status := if on then t.slideStatusOn else t.slideStatusOff
  switches.map (fun b => if b then t.slideOne else t.slideZero) ++ [status.1, status.2]

/-- SWSLIDE on, glen (R123): ARGSTR is the 5-character group string and the 5-character device string, consumed
whatever the outcome (R114). -/
def execSwslide (on : Bool) (glen : BitVec 4) (s : State) : Result :=
  let str := s.argstr
  let ovf := s.aovf
  let t := s.clearArg
  if ovf = true ∨ glen ≠ 5#4 ∨ str.length ≠ 10 then encFail .invalidAddress t
  else
    match readAll bitOf str with
    | none => encFail .invalidAddress t
    | some switches => encodeBits (dibits (slideDigits s.params.adapters on switches)) t

/-- Nib(x): the four digits of a family letter or a unit number (R125). -/
def nibOf (t : AdapterTables) (x : BitVec 4) : List Digit := nibbleDigits (t.nib.get x.toFin)

/-- The 12 digits of the family schemes: family nibble, unit nibble, status nibble (R126, R127). -/
def familyDigits (t : AdapterTables) (on : Bool) (family unit : BitVec 4) : List Digit :=
  nibOf t family ++ nibOf t unit ++ nibbleDigits (if on then t.famStatusOn else t.famStatusOff)

/-- Family f of a letter 'a'..'p' (R126): 'a' is 0. -/
def familyOf (chr : BitVec 8) : BitVec 4 := BitVec.ofNat 4 (chr.toNat - 0x61)

/-- Is the letter in 'a'..'p' (R126)? -/
def letterOk (chr : BitVec 8) : Bool := decide (0x61 ≤ chr.toNat ∧ chr.toNat ≤ 0x70)

/-- SWFAMDEV on, 'c', dev (R126): letter 'a'..'p', device 1..16. -/
def execSwfamdev (on : Bool) (chr dev : BitVec 8) (s : State) : Result :=
  if letterOk chr = false then encFail .invalidAddress s
  else if dev.toNat < 1 ∨ 16 < dev.toNat then encFail .invalidAddress s
  else
    encodeBits (dibits (familyDigits s.params.adapters on (familyOf chr) (BitVec.ofNat 4 (dev.toNat - 1)))) s

/-- SWFAMGRP on, 'c', grp, dev (R127): letter 'a'..'p', group 1..4, device 1..4. -/
def execSwfamgrp (on : Bool) (chr : BitVec 8) (grp dev : BitVec 4) (s : State) : Result :=
  if letterOk chr = false then encFail .invalidAddress s
  else if grp.toNat < 1 ∨ 4 < grp.toNat then encFail .invalidAddress s
  else if dev.toNat < 1 ∨ 4 < dev.toNat then encFail .invalidAddress s
  else
    encodeBits
      (dibits (familyDigits s.params.adapters on (familyOf chr)
        (BitVec.ofNat 4 (4 * (grp.toNat - 1) + (dev.toNat - 1))))) s

end Sys2Proof.Machine
end

