-- ==== Sys2Proof/Machine/Decoder.lean ====
section
/-! DEFINITION. The pulse input commands and DECODE (spec 43_decoder). All arithmetic is exact, on naturals (R143). -/

namespace Sys2Proof.Machine

/-! ## Matching primitives -/

/-- |d - e| (R18). -/
abbrev absDiff (d e : Nat) : Nat := (d - e) + (e - d)

/-- `within(d, E)`: E > 0 and 100 * |d - E| <= TOL_PCT * E, the boundary inclusive (R130). -/
def within (d e : Nat) : Bool := decide (0 < e) && decide (100 * absDiff d e ≤ tolPct * e)

/-- `SyncMatch(r, a, b)`: the derived unit a div syncHigh, if (a, b) is a sync pair of r at that unit
(R132, R133). -/
def syncMatch (r : Protocol) (a b : Nat) : Option Nat :=
  let u := a / r.syncHigh.toNat
  if decide (1 ≤ u) && within a (r.syncHigh.toNat * u) && within b (r.syncLow.toNat * u) then some u else none

/-- `PairMatch(r, u, a, b)`: the bit the pair stands for; the zero shape is tested first (R134). -/
def pairMatch (r : Protocol) (u a b : Nat) : Option Bool :=
  if within a (r.zeroHigh.toNat * u) && within b (r.zeroLow.toNat * u) then some false
  else if within a (r.oneHigh.toNat * u) && within b (r.oneLow.toNat * u) then some true
  else none

/-! ## Frames -/

/-- Is a bit count one a frame may have (R138)? -/
def bitCountOk (minBits m : Nat) : Bool := decide (minBits ≤ m) && decide (m ≤ valueW)

/-- The bits of a sequence of pairs, if every pair fits a bit shape (R136). -/
def allPairs (r : Protocol) (u : Nat) : List Nat → Option (List Bool)
  | [] => some []
  | [_] => none
  | a :: b :: rest =>
    match pairMatch r u a b, allPairs r u rest with
    | some x, some xs => some (x :: xs)
    | _, _ => none

/-- The leading frame of the candidate (s, u): all the pairs from the start of the sequence to the sync, where it
is acceptable (R136). -/
def leadFrame (minBits : Nat) (r : Protocol) (p : List Nat) (s u : Nat) : Option (List Bool) :=
  match allPairs r u (p.take s) with
  | some bits => if bitCountOk minBits bits.length then some bits else none
  | none => none

/-- The walk of a following frame: the bits collected, and what is left where the walk stops (R137). -/
def followWalk (r : Protocol) (u : Nat) : List Nat → List Bool × List Nat
  | a :: b :: rest =>
    match pairMatch r u a b with
    | some x => (x :: (followWalk r u rest).1, (followWalk r u rest).2)
    | none => ([], a :: b :: rest)
  | short => ([], short)

/-- May a walk stop here: fewer than two durations left, or another sync pair of r (R137)? -/
def stoppedOk (r : Protocol) : List Nat → Bool
  | a :: b :: _ => (syncMatch r a b).isSome
  | _ => true

/-- The following frame at unit u over the durations after the sync, where it is acceptable (R137). -/
def followFrame (minBits : Nat) (r : Protocol) (u : Nat) (after : List Nat) : Option (List Bool) :=
  let w := followWalk r u after
  if stoppedOk r w.2 && bitCountOk minBits w.1.length then some w.1 else none

/-- The scan of `TryProtocol` from the even position s on, where `rest` is p from s on (R135, R139): every
candidate is tried, its leading frame before its following frame. -/
def tryFrom (minBits : Nat) (r : Protocol) (p : List Nat) (s : Nat) : List Nat → Option (Nat × List Bool)
  | a :: b :: rest =>
    match syncMatch r a b with
    | none => tryFrom minBits r p (s + 2) rest
    | some u =>
      match leadFrame minBits r p s u with
      | some bits => some (u, bits)
      | none =>
        match followFrame minBits r u rest with
        | some bits => some (u, bits)
        | none => tryFrom minBits r p (s + 2) rest
  | _ => none

/-- `TryProtocol(r, p)`: the first acceptable frame of r in p, with its unit (R139). -/
def tryProtocol (minBits : Nat) (r : Protocol) (p : List Nat) : Option (Nat × List Bool) :=
  tryFrom minBits r p 0 p

/-- The first protocol of the list that yields a frame, in ascending id, where the list's first record has the
given id (R140). -/
def firstFit (minBits : Nat) (p : List Nat) (id : Nat) : List Protocol → Option (Nat × Nat × List Bool)
  | [] => none
  | r :: rs =>
    match tryProtocol minBits r p with
    | some (u, bits) => some (id, u, bits)
    | none => firstFit minBits p (id + 1) rs

/-- The decoder over a whole sequence: the result that DECODE publishes, if a protocol fits (R140, R141). -/
def decodeTrain (minBits : Nat) (rom : List Protocol) (raw : List (BitVec 32)) : Option RxResult :=
  match firstFit minBits (raw.map BitVec.toNat) 1 rom with
  | some (id, u, bits) =>
    some ⟨BitVec.ofNat 8 id, BitVec.ofNat 32 u, BitVec.ofNat 7 bits.length, BitVec.ofNat 64 (bitsToNat bits), raw⟩
  | none => none

/-! ## Commands -/

/-- RX <- the given Receiver State, as a whole (R141, R145, R147). -/
def State.setRx (s : State) (x : Option RxResult) : State := { s with rx := x }

/-- DECODE (R141): PIN and POVF are consumed whatever the outcome; a failure leaves RX as it was. -/
def execDecode (s : State) : Result :=
  let p := s.pin
  let ovf := s.povf
  let t := s.clearPin
  if ovf then fail .pulseOverflow t
  else
    match decodeTrain s.params.minBits s.rom p with
    | some x => succeed (t.setRx (some x))
    | none => fail .noProtocolMatched t

/-- CLRPIN (R129). -/
def execClrpin (s : State) : Result := succeed s.clearPin

/-- WR_PULSE_IN w (R128): a bus write to PULSE_IN. -/
def execWrPulseIn (w : Word) (s : State) : Result := .next (pushPulse w s)

end Sys2Proof.Machine
end

