-- ==== Sys2Proof/Machine/Control.lean ====
section
/-! DEFINITION. NOP, RESETRX, CLRARG, the ARG_CHAR port, and the bus reads and writes of the register window (spec
44_receiver_and_control). -/

namespace Sys2Proof.Machine

/-- NOP (R150). -/
def execNop (s : State) : Result := succeed s

/-- RESETRX (R147): RX.valid <- 0, and with it the other fields hold no value (93 U2). -/
def execResetrx (s : State) : Result := succeed (s.setRx none)

/-- CLRARG (R149). -/
def execClrarg (s : State) : Result := succeed s.clearArg

/-- WR_ARG_CHAR w (R148): a bus write to ARG_CHAR pushes w[7:0]. -/
def execWrArgChar (w : Word) (s : State) : Result := .next (pushArg (w.extractLsb' 0 8) s)

/-- BUS_READ (R151): the word goes to the response line, and nothing else changes. A read of an RX view while
RX.valid = 0 is a fault (R64, R151, 93 U1). -/
def execBusRead (r : Reg) (s : State) : Result :=
  match s.readReg r with
  | some w => .next (s.setResp (.data w))
  | none => .fault (.rxInvalidRead r)

/-- BUS_WRITE (R152). A CMD write is a command, which the decoder never gives as this instruction. -/
def execBusWrite (r : Reg) (w : Word) (s : State) : Result :=
  match r with
  | .cmd => .refused .illFormed
  | r => .next (s.writeReg r w)

end Sys2Proof.Machine
end

