-- ==== Sys2Proof/Machine/Encoder.lean ====
section
/-! DEFINITION. SENDTS, SENDVAL and SENDBIN (spec 41_encoder). -/

namespace Sys2Proof.Machine

/-- SENDTS (R116): the string and its overflow flag are read first, and consumed whatever the outcome (R114). -/
def execSendts (s : State) : Result :=
  let str := s.argstr
  let ovf := s.aovf
  let t := s.clearArg
  if str.length = 0 then encFail .emptyCode t
  else if ovf then encFail .invalidAddress t
  else if maxTsDigits < str.length then encFail .invalidAddress t
  else
    match readAll digitOf str with
    | none => encFail .invalidAddress t
    | some ds => encodeBits (dibits ds) t

/-- SENDVAL len (R117): no silent truncation. -/
def execSendval (len : BitVec 7) (s : State) : Result :=
  let n := len.toNat
  let v := s.val.toNat
  if n = 0 then encFail .emptyCode s
  else if valueW < n then encFail .invalidAddress s
  else if 2 ^ n ≤ v then encFail .invalidAddress s
  else encodeBits (natToBits v n) s

/-- SENDBIN (R118): one bit per character; the string is consumed whatever the outcome (R114). -/
def execSendbin (s : State) : Result :=
  let str := s.argstr
  let ovf := s.aovf
  let t := s.clearArg
  if str.length = 0 then encFail .emptyCode t
  else if ovf then encFail .invalidAddress t
  else if valueW < str.length then encFail .invalidAddress t
  else
    match readAll bitOf str with
    | none => encFail .invalidAddress t
    | some bits => encodeBits bits t

end Sys2Proof.Machine
end

