-- ==== Sys2Proof/Machine/ProtocolCmds.lean ====
section
/-! DEFINITION. SETPROTO and LOOKUP (spec 40_protocol_table). -/

namespace Sys2Proof.Machine

/-- ACT_PROTO and ACT_PLEN <- the given values (R106). -/
def State.setActive (s : State) (id : BitVec 8) (plen : BitVec 16) : State :=
  { s with actProto := id, actPlen := plen }

/-- SETPROTO id, plen (R106): plen = 0 loads the table's pulse length. -/
def execSetproto (id : BitVec 8) (plen : BitVec 16) (s : State) : Result :=
  match romAt s.rom id with
  | none => fail .unknownProtocol s
  | some r => succeed (s.setActive id (if plen = 0#16 then r.pulseLength else plen))

/-- The LK_TIMING word: id in bits 31:24, invertedSignal in bit 16, pulseLength in bits 15:0 (R44, R103). -/
def lkTimingWord (id : BitVec 8) (r : Protocol) : Word :=
  place id 24 ||| placeBit r.invertedSignal 16 ||| place r.pulseLength 0

/-- The LK_SYNC word (R45, R103). -/
def lkSyncWord (r : Protocol) : Word := place r.syncLow 8 ||| place r.syncHigh 0

/-- The LK_BITS word (R46, R103). -/
def lkBitsWord (r : Protocol) : Word := 
  place r.oneLow 24 ||| place r.oneHigh 16 ||| place r.zeroLow 8 ||| place r.zeroHigh 0

/-- The LK registers <- the record of an id (R103). -/
def State.setLookup (s : State) (id : BitVec 8) (r : Protocol) : State :=
  { s with lkTiming := lkTimingWord id r, lkSync := lkSyncWord r, lkBits := lkBitsWord r }

/-- LOOKUP id (R103). -/
def execLookup (id : BitVec 8) (s : State) : Result :=
  match romAt s.rom id with
  | none => fail .unknownProtocol s
  | some r => succeed (s.setLookup id r)

end Sys2Proof.Machine
end

