-- ==== Sys2Proof/Machine/Dispatch.lean ====
section
/-! DEFINITION. One arm per instruction, in the order of spec/opcode_table.json. -/

namespace Sys2Proof.Machine

def exec (i : Instr) (s : State) : Host.Outcome State Fault Refusal :=
  match i with
  | .nop => Sys2Proof.Machine.execNop s
  | .setproto id plen => Sys2Proof.Machine.execSetproto id plen s
  | .lookup id => Sys2Proof.Machine.execLookup id s
  | .sendts => Sys2Proof.Machine.execSendts s
  | .sendval len => Sys2Proof.Machine.execSendval len s
  | .sendbin => Sys2Proof.Machine.execSendbin s
  | .swslide on glen => Sys2Proof.Machine.execSwslide on glen s
  | .swfamdev on chr dev => Sys2Proof.Machine.execSwfamdev on chr dev s
  | .swfamgrp on chr grp dev => Sys2Proof.Machine.execSwfamgrp on chr grp dev s
  | .decode => Sys2Proof.Machine.execDecode s
  | .clrpin => Sys2Proof.Machine.execClrpin s
  | .resetrx => Sys2Proof.Machine.execResetrx s
  | .clrarg => Sys2Proof.Machine.execClrarg s
  | .wrPulseIn w => Sys2Proof.Machine.execWrPulseIn w s
  | .wrArgChar w => Sys2Proof.Machine.execWrArgChar w s
  | .busRead r => Sys2Proof.Machine.execBusRead r s
  | .busWrite r w => Sys2Proof.Machine.execBusWrite r w s

end Sys2Proof.Machine
end

