-- ==== Sys2Proof/Machine/Port.lean ====
section
/-! DEFINITION. The bus port (spec 20_memory R73, R74, R79, R80) and the reset input (70_reset R167 to R169): which
event the block serves next, and what it does with one that carries no instruction. -/

namespace Sys2Proof.Machine

/-- Take the oldest event off the list; the access it carries is acknowledged unless the instruction says more
(R79, R80). -/
def State.accept (s : State) (rest : List BusEvent) : State := { s with inbox := rest, resp := .ack }

/-- The hardware reset: every state element at its value of R168, an access then executing abandoned without a
response (R167, R169). Events that reach the block later stay. DESIGN CHOICE, log 13. -/
def hardReset (s : State) (rest : List BusEvent) : State := { State.resetOf s.cfg with inbox := rest }

/-- The word that goes with a bus error: 0 for a read (R74). -/
def errorData : Access → Option Word
  | .read _ _ => some 0#32
  | .write _ _ => none

/-- What the block does with an access that carries no instruction: a CMD write of an illegal word fails with
IllegalCommand and does nothing else (R91); a refused access is a bus error (R74). -/
def serveReject (e : Reject) (a : Access) (s : State) : Result :=
  match e with
  | .illegalCommand => fail .illegalCommand s
  | .outsideWindow => .fault .outsideWindow
  | .badWidth => .fault (.busError .badWidth (errorData a))
  | .misaligned => .fault (.busError .misaligned (errorData a))

/-- What the port gives the block to do. -/
inductive Fetched where
  /-- run an instruction on a state -/
  | run (i : Instr) (s : State)
  /-- nothing is left to run -/
  | done (o : Result)

/-- The next event of the list (R79). With none the block starts no activity of its own (R6). -/
def fetch (s : State) : Fetched :=
  match s.inbox with
  | [] => .done (.next s)
  | .reset _ :: rest => .done (.next (hardReset s rest))
  | .access a :: rest =>
    match decode s.params.base a with
    | .instr i => .run i (s.accept rest)
    | .reject e => .done (serveReject e a (s.accept rest))

/-- The host makes an access: it waits behind the ones before it (R79). -/
def State.post (s : State) (as : List Access) : State := { s with inbox := s.inbox ++ as.map .access }

/-- An access that the block serves next. -/
def State.present (s : State) (a : Access) : State := { s with inbox := .access a :: s.inbox }

end Sys2Proof.Machine
end

