-- ==== Sys2Proof/Machine/Step.lean ====
section
/-! DEFINITION. One step: the block serves one event (spec 20_memory R79, R80; 70_reset R179). -/

namespace Sys2Proof.Machine

/-- One step of the machine. -/
def step (s : State) : Host.Outcome State Fault Refusal :=
  match fetch s with
  | .run i t => exec i t
  | .done o => o

/-- The state with the access that the given bits stand for presented on the bus, served by the next step
(log 11, log 12). -/
def State.withFetchWord (s : State) (nbits w : Nat) : State := s.present (tableAccess s.params.base nbits w)

end Sys2Proof.Machine
end

