-- ==== Sys2Proof/Machine/Build.lean ====
section
/-! DEFINITION. Which builds are RCCODECs (spec 40_protocol_table R99, R101; 00_scope R7 to R17). -/

namespace Sys2Proof

open Sys2Proof.Machine

/-- R101's condition on protocol 1's one pair: the train of the fixture (5393 in 24 bits, at 350 microseconds) decodes
with record 1 to 24 bits of value 5393. The decode is the build's own, at its MIN_BITS; a MIN_BITS above 24, which R10
allows and no frame of 24 bits meets, counts as 24. DEDUCED, log 15. -/
def Config.fixtureDecodes (c : Config) : Bool :=
  match c.protoTable.head? with
  | none => false
  | some r =>
    (tryProtocol (min c.minBits 24) r (trainDurations r 350 (natToBits 5393 24))).map Prod.snd ==
      some (natToBits 5393 24)

/-- A build that R7, R10, R13, R14, R68, R99 and R101 allow. -/
def Config.wf (c : Config) : Bool := c.rangesOk && c.fixtureDecodes

end Sys2Proof
end

