-- ==== Sys2Proof/Machine/HostSyntax.lean ====
section
/-! DEFINITION. The host's program notation (spec 30_encoding R96) and its pseudo-instructions (R97): the accesses
that a line stands for. They are the hardware form of the source's calls and of its accessors (R146). -/

namespace Sys2Proof.Machine

/-- One line of R96 and R97. Strings are their ASCII bytes (R23). -/
inductive HostLine where
  /-- `wr REG, v` -/
  | wr (r : Reg) (v : Word)
  /-- `rd REG` -/
  | rd (r : Reg)
  /-- a command line of R96: the CMD write of the command's word -/
  | command (i : Instr)
  /-- `ARGS "s"` -/
  | args (str : List Byte)
  /-- `PULSES [d0, ..., dk]` -/
  | pulses (ds : List Word)
  /-- `SETVAL v` -/
  | setval (v : BitVec 64)
  /-- `SENDTS "s"` -/
  | sendtsOf (str : List Byte)
  /-- `SENDBIN "s"` -/
  | sendbinOf (str : List Byte)
  /-- `SENDVAL v, len` -/
  | sendvalOf (v : BitVec 64) (len : BitVec 7)
  /-- `SWSLIDE on, "g", "d"` -/
  | swslideOf (on : Bool) (group device : List Byte)
  /-- `DECODE [d0, ..., dk]` -/
  | decodeOf (ds : List Word)
  /-- `RDTX`, where the read of TX_LEN gives n -/
  | rdtx (n : Nat)
  /-- `RDRAW`, where the read of RX_RAWLEN gives n -/
  | rdraw (n : Nat)
  deriving DecidableEq, Repr

/-- `ARGS "s"`: CLRARG, then one ARG_CHAR write for each character (R97). -/
def argsAccesses (base : Nat) (str : List Byte) : List Access :=
  encode base .clrarg :: str.map fun c => encode base (.wrArgChar (place c 0))

/-- `PULSES [d0, ..., dk]`: CLRPIN, then one PULSE_IN write for each duration (R97). -/
def pulsesAccesses (base : Nat) (ds : List Word) : List Access :=
  encode base .clrpin :: ds.map fun d => encode base (.wrPulseIn d)

/-- `SETVAL v`: VAL_LO, then VAL_HI (R97). -/
def setvalAccesses (base : Nat) (v : BitVec 64) : List Access :=
  [writeAccess base .valLo (v.extractLsb' 0 32), writeAccess base .valHi (v.extractLsb' 32 32)]

/-- The reads of an index window: for i = 0 .. n-1 write the index, then read the element (R97, R146). -/
def windowAccesses (base : Nat) (idx data : Reg) (n : Nat) : List Access :=
  (List.range n).flatMap fun i => [writeAccess base idx (BitVec.ofNat 32 i), readAccess base data]

/-- The accesses a line stands for, in order (R96, R97). Where the group of a SWSLIDE line has 16 characters or more,
its length does not fit glen (R89) and the line has no word in the spec: the word here has that length modulo 16.
DESIGN CHOICE, log 21: safe. -/
def HostLine.accesses (base : Nat) : HostLine → List Access
  | .wr r v => [writeAccess base r v]
  | .rd r => [readAccess base r]
  | .command i => [encode base i]
  | .args str => argsAccesses base str
  | .pulses ds => pulsesAccesses base ds
  | .setval v => setvalAccesses base v
  | .sendtsOf str => argsAccesses base str ++ [encode base .sendts]
  | .sendbinOf str => argsAccesses base str ++ [encode base .sendbin]
  | .sendvalOf v len => setvalAccesses base v ++ [encode base (.sendval len)]
  | .swslideOf on group device =>
    argsAccesses base (group ++ device) ++ [encode base (.swslide on (BitVec.ofNat 4 group.length))]
  | .decodeOf ds => pulsesAccesses base ds ++ [encode base .decode]
  | .rdtx n => readAccess base .txLen :: windowAccesses base .txIdx .txData n
  | .rdraw n => readAccess base .rxRawlen :: windowAccesses base .rxRawIdx .rxRawData n

/-- The host makes the accesses of a line (R85). -/
def State.postLine (s : State) (l : HostLine) : State := s.post (l.accesses s.params.base)

end Sys2Proof.Machine
end

