-- ==== Sys2Proof/Machine/Platform.lean ====
section
/-! DEFINITION. Several instances on one platform (spec 60_exceptions R165): each has its own window and its own
state, and they share nothing. Several masters on one instance (R82, R166) need no definition: the events of an
instance are a list in arrival order, and any interleaving of the masters' accesses is such a list (log 16). -/

namespace Sys2Proof.Machine

/-- The instances of a platform. -/
structure Platform where
  instances : List State
  deriving DecidableEq, Repr

/-- Is an address in the window at `base` (R68)? -/
def inWindow (base addr : Nat) : Bool := decide (base ≤ addr) && decide (addr < base + 128)

/-- Two windows of 128 bytes that share no address (R68, R165). -/
def windowsApart (b c : Nat) : Bool := decide (b + 128 ≤ c) || decide (c + 128 ≤ b)

/-- Every instance of a build has the same ROM, and their windows do not overlap (R165). -/
def Platform.wf (p : Platform) : Prop :=
  p.instances.Pairwise fun s t => s.rom = t.rom ∧ windowsApart s.params.base t.params.base = true

/-- The interconnect hands an access to the instance whose window it is in (R68, R77, R165). An access in no
instance's window reaches no instance: what else the platform does with it the spec leaves to the platform (R77).
DESIGN CHOICE, log 20: unsafe. Which window an access is in goes by its first byte, so an access that starts in no
window and reaches into one is such an access too. DESIGN CHOICE, log 22: unsafe. -/
def Platform.post (p : Platform) (a : Access) : Platform :=
  ⟨p.instances.map fun s => if inWindow s.params.base a.addr then s.post [a] else s⟩

/-- One instance serves its next event (R165). -/
def Platform.stepAt (p : Platform) (k : Nat) : Host.Outcome Platform Fault Refusal :=
  match p.instances[k]? with
  | none => .next p
  | some s =>
    match step s with
    | .next t => .next ⟨p.instances.set k t⟩
    | .fault e => .fault e
    | .refused e => .refused e

end Sys2Proof.Machine
end

