-- ==== Sys2Proof/Safety.lean ====
section
/-! DEFINITION. What a good state and a safe run are: the invariants of spec 10_state R65, the overflow invariants
(44_receiver R148), and the host's side of the contract (20_memory R73, R85). -/

namespace Sys2Proof.Machine

/-- What R65 says of a valid Receiver State. -/
structure RxOk (c : Config) (x : RxResult) : Prop where
  proto_pos : 1 ≤ x.proto.toNat
  proto_le : x.proto.toNat ≤ c.nProto
  bitlen_ge : c.minBits ≤ x.bitlen.toNat
  bitlen_le : x.bitlen.toNat ≤ 64
  value_lt : x.value.toNat < 2 ^ x.bitlen.toNat
  delay_pos : 1 ≤ x.delay.toNat
  raw_le : x.raw.length ≤ c.maxPulses

/-- What R65 says of a TXBUF that is not empty: its levels alternate as some record of ROM has it (the record in
force when it was written). DEDUCED, log 14. -/
structure TxOk (rom : List Protocol) (t : List TxEntry) : Prop where
  even : t.length % 2 = 0
  ge_four : 4 ≤ t.length
  levels : ∃ r ∈ rom, ∀ (i : Nat) (e : TxEntry), t[i]? = some e →
    e.level = Bool.xor (i % 2 == 0) r.invertedSignal

/-- The invariants of R65, for a build that R7 to R17, R99 and R101 allow (`Config.wf`). -/
structure StateInv (s : State) : Prop where
  cfg_wf : s.cfg.wf = true
  actProto_pos : 1 ≤ s.actProto.toNat
  actProto_le : s.actProto.toNat ≤ s.rom.length
  actPlen_pos : 1 ≤ s.actPlen.toNat
  argstr_le : s.argstr.length ≤ s.params.maxArg
  pin_le : s.pin.length ≤ s.params.maxPulses
  txbuf_le : s.txbuf.length ≤ txCap
  rx_ok : ∀ x, s.rx = some x → RxOk s.cfg x
  tx_ok : s.txbuf = [] ∨ TxOk s.rom s.txbuf

/-- An overflow flag is set only while its buffer is full (R148 for AOVF; R33, R128 for POVF). -/
structure OverflowInv (s : State) : Prop where
  aovf_full : s.aovf = true → s.argstr.length = s.params.maxArg
  povf_full : s.povf = true → s.pin.length = s.params.maxPulses

/-- A 32-bit access at an offset of the window that is a multiple of 4 (R68, R73). -/
structure Aligned32 (base : Nat) (a : Access) : Prop where
  lo : base ≤ a.addr
  hi : a.addr < base + 128
  width : a.width = 4
  offset : (a.addr - base) % 4 = 0

/-- The host keeps its side (R73, R85): its next access is an aligned 32-bit access of the window, and it reads an
RX view only while STATUS.RXV = 1. -/
def HostObeys (s : State) : Prop :=
  ∀ a rest, s.inbox = .access a :: rest →
    Aligned32 s.params.base a ∧
      ∀ r, a = readAccess s.params.base r → isRxView r = true → s.rxValid = true

/-- k steps, stopping at the first fault or refusal: the host's `Host.Core.run` at this machine
(`runSteps_eq_host_run` in Laws/Run.lean). -/
def runSteps : Nat → State → Result
  | 0, s => .next s
  | k + 1, s =>
    match step s with
    | .next t => runSteps k t
    | .fault e => .fault e
    | .refused e => .refused e

/-- A run of k steps that meets no fault and no refusal. -/
def SafeRun (k : Nat) (s : State) : Prop := ∃ t, runSteps k s = .next t

/-! ## Words of the statements -/

/-- r is ROM[ACT_PROTO] (R98, R109). -/
def ActiveIs (s : State) (r : Protocol) : Prop :=
  1 ≤ s.actProto.toNat ∧ s.rom[s.actProto.toNat - 1]? = some r

/-- The character of a tri-state digit (R107). -/
def digitChar : Digit → Byte
  | .zero => 0x30#8
  | .one => 0x31#8
  | .floating => 0x46#8

/-- The character of a bit (R118). -/
def bitChar (b : Bool) : Byte := if b then 0x31#8 else 0x30#8

/-- "00000FFF0F0F", the tri-state string of the fixture (R101). -/
def fixtureArg : List Byte :=
  [0x30#8, 0x30#8, 0x30#8, 0x30#8, 0x30#8, 0x46#8, 0x46#8, 0x46#8, 0x30#8, 0x46#8, 0x30#8, 0x46#8]

/-- Match and mask of the 13 command words, as R90 prints them. -/
def commandWords : List (Word × Word) :=
  [(0x00000000#32, 0xFFFFFFFF#32), (0x00000001#32, 0x000000FF#32), (0x00000002#32, 0xFFFF00FF#32),
   (0x00000010#32, 0xFFFFFFFF#32), (0x00000011#32, 0xFFFF80FF#32), (0x00000012#32, 0xFFFFFFFF#32),
   (0x00000020#32, 0xFFF0FEFF#32), (0x00000021#32, 0x0000FEFF#32), (0x00000022#32, 0x0000FEFF#32),
   (0x00000030#32, 0xFFFFFFFF#32), (0x00000031#32, 0xFFFFFFFF#32), (0x00000032#32, 0xFFFFFFFF#32),
   (0x00000040#32, 0xFFFFFFFF#32)]

/-- The encode-class commands (R24): those that write TXBUF. -/
def encodeClass : Instr → Bool
  | .sendts | .sendval _ | .sendbin | .swslide _ _ | .swfamdev _ _ _ | .swfamgrp _ _ _ _ => true
  | .nop | .setproto _ _ | .lookup _ | .decode | .clrpin | .resetrx | .clrarg | .wrPulseIn _ | .wrArgChar _
  | .busRead _ | .busWrite _ _ => false

/-- The address adapter commands (R120). -/
def adapterCommand : Instr → Bool
  | .swslide _ _ | .swfamdev _ _ _ | .swfamgrp _ _ _ _ => true
  | .nop | .setproto _ _ | .lookup _ | .sendts | .sendval _ | .sendbin | .decode | .clrpin | .resetrx | .clrarg
  | .wrPulseIn _ | .wrArgChar _ | .busRead _ | .busWrite _ _ => false

/-- The commands that consume ARGSTR (R114). -/
def consumesArg : Instr → Bool
  | .sendts | .sendbin | .swslide _ _ => true
  | .nop | .setproto _ _ | .lookup _ | .sendval _ | .swfamdev _ _ _ | .swfamgrp _ _ _ _ | .decode | .clrpin
  | .resetrx | .clrarg | .wrPulseIn _ | .wrArgChar _ | .busRead _ | .busWrite _ _ => false

/-- The bus operations, which are no commands (R86). -/
def busOperation : Instr → Bool
  | .wrPulseIn _ | .wrArgChar _ | .busRead _ | .busWrite _ _ => true
  | .nop | .setproto _ _ | .lookup _ | .sendts | .sendval _ | .sendbin | .swslide _ _ | .swfamdev _ _ _
  | .swfamgrp _ _ _ _ | .decode | .clrpin | .resetrx | .clrarg => false

/-- The codes a command may leave in STATUS.ERR (R154, the column "raised by"). -/
def mayRaise : Instr → List ErrCode
  | .setproto _ _ | .lookup _ => [.ok, .unknownProtocol]
  | .sendts | .sendval _ | .sendbin => [.ok, .invalidAddress, .emptyCode]
  | .swslide _ _ | .swfamdev _ _ _ | .swfamgrp _ _ _ _ => [.ok, .invalidAddress]
  | .decode => [.ok, .noProtocolMatched, .pulseOverflow]
  | .nop | .clrpin | .resetrx | .clrarg => [.ok]
  | .wrPulseIn _ | .wrArgChar _ | .busRead _ | .busWrite _ _ => []

/-- Two records with the same six multiples (R99, R140). -/
def sameShapes (r q : Protocol) : Prop :=
  r.syncHigh = q.syncHigh ∧ r.syncLow = q.syncLow ∧ r.zeroHigh = q.zeroHigh ∧ r.zeroLow = q.zeroLow ∧
    r.oneHigh = q.oneHigh ∧ r.oneLow = q.oneLow

/-- Every access waiting is an aligned 32-bit access of the window, and none reads an RX view (R64, R73). -/
def HostObeysAlways (s : State) : Prop :=
  ∀ a, BusEvent.access a ∈ s.inbox →
    Aligned32 s.params.base a ∧ ∀ r, a = readAccess s.params.base r → isRxView r = false

end Sys2Proof.Machine
end

