-- ==== Sys2Proof/Certificates/Slice0/Obligations.lean ====
section
/-! DEFINITION. The statements for the provers, by family: reset and invariants, the port and the encoding, the
protocol table, the encoder, the adapters, the decoder, the receiver and the register window, whole-machine rules.
A statement about an instruction gives its whole next state, so that everything it does not name is unchanged. -/

open Sys2Proof Sys2Proof.Machine

/-! ## Reset and invariants -/

/-- R168: every state element of any build after reset; the RX fields other than valid have no value, and reading
one is a fault. -/
def Obligations.ResetSetsEveryStateElement : Prop :=
  ∀ (c : Config) (r : Protocol) (rs : List Protocol), c.protoTable = r :: rs →
    (State.resetOf c).err = .ok ∧ (State.resetOf c).povf = false ∧ (State.resetOf c).aovf = false ∧
    (State.resetOf c).rxValid = false ∧
    (∀ reg, isRxView reg = true → exec (.busRead reg) (State.resetOf c) = .fault (.rxInvalidRead reg)) ∧
    (State.resetOf c).valLo = 0#32 ∧ (State.resetOf c).valHi = 0#32 ∧ (State.resetOf c).argstr = [] ∧
    (State.resetOf c).pin = [] ∧ (State.resetOf c).actProto = 1#8 ∧
    (State.resetOf c).actPlen = r.pulseLength ∧ (State.resetOf c).lkTiming = 0#32 ∧
    (State.resetOf c).lkSync = 0#32 ∧ (State.resetOf c).lkBits = 0#32 ∧ (State.resetOf c).txbuf = [] ∧
    (State.resetOf c).txIdx = 0#16 ∧ (State.resetOf c).rxRawIdx = 0#16 ∧
    (State.resetOf c).rom = c.protoTable ∧ (State.resetOf c).params = c.toParams ∧
    State.reset.actPlen = 350#16

/-- R167, R169: a reset from any state, whether or not it abandons an access, leaves the reset state of the build.
(Events that reach the block later wait, log 13.) -/
def Obligations.HardwareResetFromAnyState : Prop :=
  ∀ (s : State) (abandoned : Option Access) (rest : List BusEvent), s.inbox = .reset abandoned :: rest →
    step s = .next { State.resetOf s.cfg with inbox := rest }

/-- R65, R148: the invariants hold after reset, for every build the spec allows and for the default one. -/
def Obligations.InvariantsHoldAfterReset : Prop :=
  (∀ c : Config, c.wf = true → StateInv (State.resetOf c) ∧ OverflowInv (State.resetOf c)) ∧ StateInv State.reset

/-- R65: every step keeps the invariants, from every state that has them. -/
def Obligations.EveryStepKeepsInvariants : Prop :=
  ∀ s t : State, StateInv s → step s = .next t → StateInv t

/-- R148 (and R33 with R128): an overflow flag is set only while its buffer is full, and every step keeps that, from
the states with the invariants of R65 (in the others a buffer may hold more than it has room for). -/
def Obligations.OverflowFlagMeansFullBuffer : Prop :=
  ∀ s t : State, StateInv s → OverflowInv s → step s = .next t → OverflowInv t

/-! ## The port and the encoding -/

/-- R79, R80, R86: the step that serves an access runs the instruction it decodes to. Around it the step takes the
access off the list and puts the acknowledgement on the response line, the model's own fields (log 1). -/
def Obligations.StepRunsTheDecodedInstruction : Prop :=
  ∀ (s : State) (a : Access) (rest : List BusEvent) (i : Instr), s.inbox = .access a :: rest →
    decode s.params.base a = .instr i →
    i.wellFormed = true ∧ step s = exec i { s with inbox := rest, resp := .ack }

/-- R6: with no access waiting the block does nothing. (That the step then answers the same state is the model's
form of it, log 1.) -/
def Obligations.IdleBlockStartsNothing : Prop :=
  ∀ s : State, s.inbox = [] → step s = .next s

/-- R91: a CMD word that matches no row of R90 sets ERR to 6 and changes nothing else. -/
def Obligations.IllegalCommandOnlySetsErr : Prop :=
  ∀ (s : State) (w : Word) (rest : List BusEvent),
    (∀ row ∈ commandWords, w &&& row.2 ≠ row.1) →
    s.inbox = .access (writeAccess s.params.base .cmd w) :: rest →
    step s = .next { s with inbox := rest, resp := .ack, err := .illegalCommand } ∧
      ErrCode.illegalCommand.code = 6#4

/-- R90: no word matches two rows of the opcode map, and the decoder takes exactly the words that match one. -/
def Obligations.CommandRowsAreDisjoint : Prop :=
  ∀ w : Word, (commandWords.filter fun row => w &&& row.2 == row.1).length ≤ 1 ∧
    ((decodeCmd w).isSome = true ↔ ∃ row ∈ commandWords, w &&& row.2 = row.1)

/-- Decoding the encoding of a well-formed instruction gives it back, whatever the window's base and the operands. -/
def Obligations.DecodeInvertsEncode : Prop :=
  ∀ (base : Nat) (i : Instr), i.wellFormed = true → decode base (encode base i) = .instr i

/-- Every access that decodes is the encoding of what it decodes to, so that no bit and no lane is dropped. -/
def Obligations.EncodeInvertsDecode : Prop :=
  ∀ (base : Nat) (a : Access) (i : Instr), decode base a = .instr i →
    i.wellFormed = true ∧ encode base i = a

/-- R88 to R90: words written out from the encoding tables decode to the commands they stand for (95 E1 to E8). -/
def Obligations.WrittenOutWordsDecode : Prop :=
  decodeCmd 0x00000000#32 = some .nop ∧ decodeCmd 0x00000101#32 = some (.setproto 1#8 0#16) ∧
  decodeCmd 0x02BC0201#32 = some (.setproto 2#8 700#16) ∧ decodeCmd 0x00000102#32 = some (.lookup 1#8) ∧
  decodeCmd 0x00001811#32 = some (.sendval 24#7) ∧ decodeCmd 0x00050120#32 = some (.swslide true 5#4) ∧
  decodeCmd 0x07630121#32 = some (.swfamdev true 0x63#8 7#8) ∧
  decodeCmd 0x32630122#32 = some (.swfamgrp true 0x63#8 2#4 3#4) ∧
  decode 0x1000 (.read 0x1004 4) = .instr (.busRead .status) ∧
  decode 0x1000 (.write 0x103C [3#8, 0#8, 0xCD#8, 0xAB#8]) = .instr (.busWrite .txIdx 0xABCD0003#32) ∧
  decode 0x1000 (.write 0x1018 [0x5E#8, 1#8, 0#8, 0#8]) = .instr (.wrPulseIn 350#32)

/-- R73, R74: an access of the window that is not 32 bits wide at a multiple of 4 is refused with a bus error, and a
refused read returns 0 with it; a model treats it as a fault. That an access is of the window whenever its first byte is
in it is the model's choice (log 22). -/
def Obligations.RefusedAccessIsABusError : Prop :=
  ∀ (s : State) (a : Access) (rest : List BusEvent), s.inbox = .access a :: rest →
    s.params.base ≤ a.addr → a.addr < s.params.base + 128 → (a.width ≠ 4 ∨ (a.addr - s.params.base) % 4 ≠ 0) →
    ∃ why, step s = .fault (.busError why (match a with | .read _ _ => some 0#32 | .write _ _ => none))

/-- The model's own stops, none of them the spec's: an access outside the window (log 6; by its first byte,
log 22), a BUS_WRITE term that names CMD (log 10), and an encode while ACT_PROTO names no record, in states no run
reaches (log 8). -/
def Obligations.ModelStopsOfItsOwn : Prop :=
  (∀ (s : State) (a : Access) (rest : List BusEvent), s.inbox = .access a :: rest →
    (a.addr < s.params.base ∨ s.params.base + 128 ≤ a.addr) → step s = .fault .outsideWindow) ∧
  (∀ (s : State) (w : Word), exec (.busWrite .cmd w) s = .refused .illFormed) ∧
  (∀ (s : State) (b : List Bool), s.rom.length < s.actProto.toNat → encodeBits b s = .fault .actProtoOutsideTable)

/-! ## The Protocol Table -/

/-- R106: SETPROTO selects the protocol and its pulse length or the override, or fails and changes only ERR. DECODE
does not read what it selects. -/
def Obligations.SetprotoSelectsOrFails : Prop :=
  (∀ w : Word, w &&& 0x000000FF#32 = 0x00000001#32 →
    decodeCmd w = some (.setproto (w.extractLsb' 8 8) (w.extractLsb' 16 16))) ∧
  ∀ (s : State) (id : BitVec 8) (plen : BitVec 16),
    ((id.toNat < 1 ∨ s.rom.length < id.toNat) →
      exec (.setproto id plen) s = .next { s with err := .unknownProtocol }) ∧
    (1 ≤ id.toNat → id.toNat ≤ s.rom.length →
      ∃ r, s.rom[id.toNat - 1]? = some r ∧
        exec (.setproto id plen) s =
          .next { s with actProto := id, actPlen := (if plen = 0#16 then r.pulseLength else plen), err := .ok }) ∧
    (∀ t : State, exec .decode s = .next t →
      exec .decode { s with actProto := id, actPlen := plen } = .next { t with actProto := id, actPlen := plen })

/-- R103: LOOKUP copies the record into the LK registers, field by field, or fails and changes only ERR. -/
def Obligations.LookupCopiesRecordOrFails : Prop :=
  (∀ w : Word, w &&& 0xFFFF00FF#32 = 0x00000002#32 → decodeCmd w = some (.lookup (w.extractLsb' 8 8))) ∧
  ∀ (s : State) (id : BitVec 8),
    ((id.toNat < 1 ∨ s.rom.length < id.toNat) →
      exec (.lookup id) s = .next { s with err := .unknownProtocol }) ∧
    (1 ≤ id.toNat → id.toNat ≤ s.rom.length →
      ∃ r, s.rom[id.toNat - 1]? = some r ∧
        exec (.lookup id) s = .next
          { s with
            lkTiming := BitVec.ofNat 32 (2 ^ 24 * id.toNat + 2 ^ 16 * r.invertedSignal.toNat + r.pulseLength.toNat)
            lkSync := BitVec.ofNat 32 (2 ^ 8 * r.syncLow.toNat + r.syncHigh.toNat)
            lkBits := BitVec.ofNat 32
              (2 ^ 24 * r.oneLow.toNat + 2 ^ 16 * r.oneHigh.toNat + 2 ^ 8 * r.zeroLow.toNat + r.zeroHigh.toNat)
            err := .ok })

/-- R104: two LOOKUP commands with the same valid id leave the same LK registers, whatever runs between them. -/
def Obligations.LookupIsIdempotentAcrossRuns : Prop :=
  ∀ (s : State) (id : BitVec 8), 1 ≤ id.toNat → id.toNat ≤ s.rom.length →
    ∃ s₁, exec (.lookup id) s = .next s₁ ∧
      ∀ (k : Nat) (between : List BusEvent) (s₂ : State),
        runSteps k { s₁ with inbox := between } = .next s₂ →
        ∃ s₃, exec (.lookup id) s₂ = .next s₃ ∧
          s₃.lkTiming = s₁.lkTiming ∧ s₃.lkSync = s₁.lkSync ∧ s₃.lkBits = s₁.lkBits

/-- No step, a reset among them, changes ROM (R62) or any other parameter of the build, and no run does. That the other
parameters are constant data of the machine is the model's (00_scope section 3 fixes them when the block is built,
log 2). -/
def Obligations.ConfigurationNeverChanges : Prop :=
  (∀ s t : State, step s = .next t → t.rom = s.rom ∧ t.params = s.params) ∧
  ∀ (k : Nat) (s t : State), runSteps k s = .next t → t.rom = s.rom ∧ t.params = s.params

/-! ## The encoder -/

/-- R108, R114, R116: SENDTS consumes ARGSTR and AOVF, and sends two bits a digit, or fails with EmptyCode or
InvalidAddress and empties TXBUF. -/
def Obligations.SendtsEncodesOrFails : Prop :=
  decodeCmd 0x00000010#32 = some .sendts ∧
  (digitBits .zero = [false, false] ∧ digitBits .one = [true, true] ∧ digitBits .floating = [false, true]) ∧
  ∀ s : State,
    (s.argstr = [] →
      exec .sendts s = .next { s with argstr := [], aovf := false, txbuf := [], err := .emptyCode }) ∧
    (s.argstr ≠ [] →
      (s.aovf = true ∨ 32 < s.argstr.length ∨ ∃ c ∈ s.argstr, c ≠ 0x30#8 ∧ c ≠ 0x31#8 ∧ c ≠ 0x46#8) →
      exec .sendts s = .next { s with argstr := [], aovf := false, txbuf := [], err := .invalidAddress }) ∧
    (∀ (ds : List Digit) (r : Protocol), ds ≠ [] → ds.length ≤ 32 → s.argstr = ds.map digitChar →
      s.aovf = false → ActiveIs s r →
      exec .sendts s = .next
        { s with argstr := [], aovf := false, txbuf := pulseTrain r s.actPlen.toNat (ds.flatMap digitBits),
                 err := .ok })

/-- R117: SENDVAL sends the bits whose value is VAL, most significant first, or fails and empties TXBUF. VAL and
ARGSTR stay. -/
def Obligations.SendvalEncodesOrFails : Prop :=
  (∀ w : Word, w &&& 0xFFFF80FF#32 = 0x00000011#32 → decodeCmd w = some (.sendval (w.extractLsb' 8 7))) ∧
  ∀ (s : State) (len : BitVec 7),
    (len = 0#7 → exec (.sendval len) s = .next { s with txbuf := [], err := .emptyCode }) ∧
    (len ≠ 0#7 → (64 < len.toNat ∨ 2 ^ len.toNat ≤ 2 ^ 32 * s.valHi.toNat + s.valLo.toNat) →
      exec (.sendval len) s = .next { s with txbuf := [], err := .invalidAddress }) ∧
    (∀ (bits : List Bool) (r : Protocol), bits ≠ [] → bits.length = len.toNat → bits.length ≤ 64 →
      bitsToNat bits = 2 ^ 32 * s.valHi.toNat + s.valLo.toNat → ActiveIs s r →
      exec (.sendval len) s = .next { s with txbuf := pulseTrain r s.actPlen.toNat bits, err := .ok })

/-- R114, R118: SENDBIN consumes ARGSTR and AOVF, and sends one bit a character, or fails and empties TXBUF. -/
def Obligations.SendbinEncodesOrFails : Prop :=
  decodeCmd 0x00000012#32 = some .sendbin ∧
  ∀ s : State,
    (s.argstr = [] →
      exec .sendbin s = .next { s with argstr := [], aovf := false, txbuf := [], err := .emptyCode }) ∧
    (s.argstr ≠ [] → (s.aovf = true ∨ 64 < s.argstr.length ∨ ∃ c ∈ s.argstr, c ≠ 0x30#8 ∧ c ≠ 0x31#8) →
      exec .sendbin s = .next { s with argstr := [], aovf := false, txbuf := [], err := .invalidAddress }) ∧
    (∀ (bits : List Bool) (r : Protocol), bits ≠ [] → bits.length ≤ 64 → s.argstr = bits.map bitChar →
      s.aovf = false → ActiveIs s r →
      exec .sendbin s = .next
        { s with argstr := [], aovf := false, txbuf := pulseTrain r s.actPlen.toNat bits, err := .ok })

/-- R109 to R112: the train EncodeBits stores has a pair for each bit, in order, then the sync pair once; its
durations are the multiples times ACT_PLEN without wrapping, and its levels alternate, flipped when the protocol is
inverted. -/
def Obligations.EncodedTrainEntries : Prop :=
  ∀ (s : State) (r : Protocol) (bits : List Bool), ActiveIs s r →
    ∃ t, encodeBits bits s = .next { s with txbuf := t, err := .ok } ∧ t.length = 2 * bits.length + 2 ∧
      (∀ (i : Nat) (e : TxEntry), t[i]? = some e → e.level = Bool.xor (i % 2 == 0) r.invertedSignal) ∧
      (∀ (i : Nat) (b : Bool) (e f : TxEntry), bits[i]? = some b → t[2 * i]? = some e → t[2 * i + 1]? = some f →
        e.duration.toNat = (if b then r.oneHigh else r.zeroHigh).toNat * s.actPlen.toNat ∧
        f.duration.toNat = (if b then r.oneLow else r.zeroLow).toNat * s.actPlen.toNat) ∧
      (∀ e f : TxEntry, t[2 * bits.length]? = some e → t[2 * bits.length + 1]? = some f →
        e.duration.toNat = r.syncHigh.toNat * s.actPlen.toNat ∧
        f.duration.toNat = r.syncLow.toNat * s.actPlen.toNat)

/-- R119: for a tri-state string of 1 to 32 digits, SENDTS of it, SENDVAL of its value with two bits a digit, and
SENDBIN of its bits leave the same TXBUF, from any three states with the same active protocol and pulse length. -/
def Obligations.ThreeEncodePathsConverge : Prop :=
  ∀ (ds : List Digit) (r : Protocol) (s₁ s₂ s₃ : State) (len : BitVec 7), ds ≠ [] → ds.length ≤ 32 →
    ActiveIs s₁ r → ActiveIs s₂ r → ActiveIs s₃ r → s₂.actPlen = s₁.actPlen → s₃.actPlen = s₁.actPlen →
    s₁.argstr = ds.map digitChar → s₁.aovf = false →
    2 ^ 32 * s₂.valHi.toNat + s₂.valLo.toNat = bitsToNat (ds.flatMap digitBits) → len.toNat = 2 * ds.length →
    s₃.argstr = (ds.flatMap digitBits).map bitChar → s₃.aovf = false →
    ∃ t₁ t₂ t₃, exec .sendts s₁ = .next t₁ ∧ exec (.sendval len) s₂ = .next t₂ ∧ exec .sendbin s₃ = .next t₃ ∧
      t₁.err = .ok ∧ t₂.err = .ok ∧ t₃.err = .ok ∧ t₁.txbuf ≠ [] ∧ t₂.txbuf = t₁.txbuf ∧ t₃.txbuf = t₁.txbuf

/-- R115: what an encode-class command leaves in TXBUF depends only on its operand, ROM[ACT_PROTO] and ACT_PLEN, so not
on RX, PIN, the old TXBUF or anything else. The operand beside the command word is ARGSTR and AOVF for the commands that
consume them (R114), VAL for SENDVAL (R117), and nothing for SWFAMDEV and SWFAMGRP. For the adapter commands the two states
are of builds with the same digit tables (log 9); no other command depends on them. -/
def Obligations.EncodeIsPure : Prop :=
  ∀ (i : Instr) (s q : State) (r : Protocol), encodeClass i = true → ActiveIs s r → ActiveIs q r →
    q.actPlen = s.actPlen →
    (consumesArg i = true → q.argstr = s.argstr ∧ q.aovf = s.aovf) →
    (∀ len, i = .sendval len → q.valLo = s.valLo ∧ q.valHi = s.valHi) →
    (adapterCommand i = true → q.params.adapters = s.params.adapters) →
    ∃ t u, exec i s = .next t ∧ exec i q = .next u ∧ t.txbuf = u.txbuf ∧ t.err = u.err

/-! ## The address adapters -/

/-- R123: SWSLIDE with the spec's digit table sends F for a '0' switch and 0 for a '1' switch, then 0F for on and F0 for
off; every malformed operand fails with InvalidAddress and empties TXBUF. ARGSTR is consumed whatever the outcome. -/
def Obligations.SwslideEncodesOrFails : Prop :=
  (∀ w : Word, w &&& 0xFFF0FEFF#32 = 0x00000020#32 →
    decodeCmd w = some (.swslide (w.getLsbD 8) (w.extractLsb' 16 4))) ∧
  ∀ (s : State) (on : Bool) (glen : BitVec 4),
    ((s.aovf = true ∨ glen ≠ 5#4 ∨ s.argstr.length ≠ 10 ∨ ∃ c ∈ s.argstr, c ≠ 0x30#8 ∧ c ≠ 0x31#8) →
      exec (.swslide on glen) s =
        .next { s with argstr := [], aovf := false, txbuf := [], err := .invalidAddress }) ∧
    (∀ (switches : List Bool) (r : Protocol), s.aovf = false → glen = 5#4 → switches.length = 10 →
      s.argstr = switches.map bitChar → s.params.adapters = defaultAdapters → ActiveIs s r →
      exec (.swslide on glen) s = .next
        { s with
          argstr := []
          aovf := false
          txbuf := pulseTrain r s.actPlen.toNat
            (switches.flatMap (fun b => if b then [false, false] else [false, true]) ++
              (if on then [false, false, false, true] else [false, true, false, false]))
          err := .ok })

/-- R125, R126: SWFAMDEV with the spec's digit tables sends the family nibble, the nibble of device - 1, least
significant bit first with F for a 1, then 0FFF for on and 0FF0 for off; any other letter or number fails with
InvalidAddress. ARGSTR is not consumed. -/
def Obligations.SwfamdevEncodesOrFails : Prop :=
  (∀ w : Word, w &&& 0x0000FEFF#32 = 0x00000021#32 →
    decodeCmd w = some (.swfamdev (w.getLsbD 8) (w.extractLsb' 16 8) (w.extractLsb' 24 8))) ∧
  ∀ (s : State) (on : Bool) (chr dev : BitVec 8),
    ((chr.toNat < 0x61 ∨ 0x70 < chr.toNat ∨ dev.toNat < 1 ∨ 16 < dev.toNat) →
      exec (.swfamdev on chr dev) s = .next { s with txbuf := [], err := .invalidAddress }) ∧
    (∀ r : Protocol, 0x61 ≤ chr.toNat → chr.toNat ≤ 0x70 → 1 ≤ dev.toNat → dev.toNat ≤ 16 →
      s.params.adapters = defaultAdapters → ActiveIs s r →
      exec (.swfamdev on chr dev) s = .next
        { s with
          txbuf := pulseTrain r s.actPlen.toNat
            ([0, 1, 2, 3].flatMap (fun j => [false, (chr.toNat - 0x61).testBit j]) ++
              [0, 1, 2, 3].flatMap (fun j => [false, (dev.toNat - 1).testBit j]) ++
              [false, false, false, true, false, true, false, on])
          err := .ok })

/-- R127: SWFAMGRP with the spec's digit tables: digits 5 and 6 are the bits of device - 1, digits 7 and 8 those of
group - 1, the rest as for SWFAMDEV; any other letter or number fails with InvalidAddress. -/
def Obligations.SwfamgrpEncodesOrFails : Prop :=
  (∀ w : Word, w &&& 0x0000FEFF#32 = 0x00000022#32 →
    decodeCmd w =
      some (.swfamgrp (w.getLsbD 8) (w.extractLsb' 16 8) (w.extractLsb' 24 4) (w.extractLsb' 28 4))) ∧
  ∀ (s : State) (on : Bool) (chr : BitVec 8) (grp dev : BitVec 4),
    ((chr.toNat < 0x61 ∨ 0x70 < chr.toNat ∨ grp.toNat < 1 ∨ 4 < grp.toNat ∨ dev.toNat < 1 ∨ 4 < dev.toNat) →
      exec (.swfamgrp on chr grp dev) s = .next { s with txbuf := [], err := .invalidAddress }) ∧
    (∀ r : Protocol, 0x61 ≤ chr.toNat → chr.toNat ≤ 0x70 → 1 ≤ grp.toNat → grp.toNat ≤ 4 → 1 ≤ dev.toNat →
      dev.toNat ≤ 4 → s.params.adapters = defaultAdapters → ActiveIs s r →
      exec (.swfamgrp on chr grp dev) s = .next
        { s with
          txbuf := pulseTrain r s.actPlen.toNat
            ([0, 1, 2, 3].flatMap (fun j => [false, (chr.toNat - 0x61).testBit j]) ++
              [0, 1].flatMap (fun j => [false, (dev.toNat - 1).testBit j]) ++
              [0, 1].flatMap (fun j => [false, (grp.toNat - 1).testBit j]) ++
              [false, false, false, true, false, true, false, on])
          err := .ok })

/-- R127's corner case: SWFAMGRP with (g, v) has the whole effect of SWFAMDEV with device 4(g - 1) + v, in every
build and every state. -/
def Obligations.SwfamgrpIsSwfamdevOfUnit : Prop :=
  ∀ (s : State) (on : Bool) (chr dev : BitVec 8) (g v : BitVec 4), 1 ≤ g.toNat → g.toNat ≤ 4 → 1 ≤ v.toNat →
    v.toNat ≤ 4 → dev.toNat = 4 * (g.toNat - 1) + v.toNat →
    exec (.swfamgrp on chr g v) s = exec (.swfamdev on chr dev) s

/-- R120, R121: whatever the build's digit tables, an adapter command completes with a 50-pulse train, or with
InvalidAddress and an empty TXBUF, and never with EmptyCode. -/
def Obligations.AdaptersSendFiftyPulsesOrFail : Prop :=
  ∀ (i : Instr) (s : State) (r : Protocol), adapterCommand i = true → ActiveIs s r →
    ∃ t, exec i s = .next t ∧
      ((t.err = .ok ∧ t.txbuf.length = 50) ∨ (t.err = .invalidAddress ∧ t.txbuf = []))

/-! ## The decoder -/

/-- R128: a PULSE_IN write pushes the duration, or sets POVF if PIN is full; ERR stays. -/
def Obligations.PulseInPushesOrOverflows : Prop :=
  ∀ (s : State) (w : Word),
    (s.pin.length < s.params.maxPulses → exec (.wrPulseIn w) s = .next { s with pin := s.pin ++ [w] }) ∧
    (s.params.maxPulses ≤ s.pin.length → exec (.wrPulseIn w) s = .next { s with povf := true })

/-- R129: CLRPIN empties PIN and clears POVF. -/
def Obligations.ClrpinEmptiesPin : Prop :=
  decodeCmd 0x00000031#32 = some .clrpin ∧
  ∀ s : State, exec .clrpin s = .next { s with pin := [], povf := false, err := .ok }

/-- R130: the tolerance test, on exact integers, the boundary inclusive. -/
def Obligations.WithinIsTheToleranceTest : Prop :=
  ∀ d e : Nat, within d e = true ↔ 0 < e ∧ 100 * |(d : Int) - (e : Int)| ≤ 20 * (e : Int)

/-- R131: at an expected duration that is a multiple of 100, deviations of 19% and 20% match and 21% does not. -/
def Obligations.ToleranceBoundary : Prop :=
  ∀ k : Nat, 1 ≤ k →
    within (119 * k) (100 * k) = true ∧ within (81 * k) (100 * k) = true ∧ within (120 * k) (100 * k) = true ∧
    within (80 * k) (100 * k) = true ∧ within (121 * k) (100 * k) = false ∧ within (79 * k) (100 * k) = false

/-- R132 to R134, R144: the sync test and its derived unit, the pair test with the zero shape first, and a zero
duration matches nothing. -/
def Obligations.SyncAndPairTests : Prop :=
  (∀ (r : Protocol) (a b u : Nat), syncMatch r a b = some u ↔
    u = a / r.syncHigh.toNat ∧ 1 ≤ u ∧ within a (r.syncHigh.toNat * u) = true ∧
      within b (r.syncLow.toNat * u) = true) ∧
  (∀ (r : Protocol) (u a b : Nat),
    (pairMatch r u a b = some false ↔
      within a (r.zeroHigh.toNat * u) = true ∧ within b (r.zeroLow.toNat * u) = true) ∧
    (pairMatch r u a b = some true ↔
      ¬(within a (r.zeroHigh.toNat * u) = true ∧ within b (r.zeroLow.toNat * u) = true) ∧
        within a (r.oneHigh.toNat * u) = true ∧ within b (r.oneLow.toNat * u) = true)) ∧
  (∀ (r : Protocol) (u d : Nat), pairMatch r u 0 d = none ∧ pairMatch r u d 0 = none ∧ syncMatch r 0 d = none ∧
    syncMatch r d 0 = none)

/-- R136, R138: the leading frame is the run of pairs from the start of the sequence to the sync, each pair a bit,
with MIN_BITS to 64 of them. -/
def Obligations.LeadingFrameIsTheRunBeforeSync : Prop :=
  ∀ (m : Nat) (r : Protocol) (p : List Nat) (k u : Nat) (bits : List Bool), 2 * k ≤ p.length →
    (leadFrame m r p (2 * k) u = some bits ↔
      bits.length = k ∧ m ≤ k ∧ k ≤ 64 ∧
        ∀ i a b, i < k → p[2 * i]? = some a → p[2 * i + 1]? = some b → pairMatch r u a b = bits[i]?)

/-- R137, R138: the following frame is the run of pairs after the sync, each pair a bit, ended by exhaustion (a
single duration left counts) or by a pair that is no bit but a sync pair of r, with MIN_BITS to 64 bits. -/
def Obligations.FollowingFrameIsTheRunAfterSync : Prop :=
  ∀ (m : Nat) (r : Protocol) (u : Nat) (q : List Nat) (bits : List Bool),
    followFrame m r u q = some bits ↔
      m ≤ bits.length ∧ bits.length ≤ 64 ∧ 2 * bits.length ≤ q.length ∧
        (∀ i a b, i < bits.length → q[2 * i]? = some a → q[2 * i + 1]? = some b →
          pairMatch r u a b = bits[i]?) ∧
        (q.length < 2 * bits.length + 2 ∨
          ∃ a b v, q[2 * bits.length]? = some a ∧ q[2 * bits.length + 1]? = some b ∧
            pairMatch r u a b = none ∧ syncMatch r a b = some v)

/-- R135, R139: TryProtocol answers the first acceptable frame: the least even position that is a sync candidate with
an acceptable frame, the leading frame before the following one. -/
def Obligations.TryProtocolTakesTheFirstFrame : Prop :=
  ∀ (m : Nat) (r : Protocol) (p : List Nat) (u : Nat) (bits : List Bool),
    tryProtocol m r p = some (u, bits) ↔
      ∃ k a b, p[2 * k]? = some a ∧ p[2 * k + 1]? = some b ∧ syncMatch r a b = some u ∧
        (leadFrame m r p (2 * k) u = some bits ∨
          (leadFrame m r p (2 * k) u = none ∧ followFrame m r u (p.drop (2 * k + 2)) = some bits)) ∧
        ∀ k' a' b' u', k' < k → p[2 * k']? = some a' → p[2 * k' + 1]? = some b' →
          syncMatch r a' b' = some u' →
          leadFrame m r p (2 * k') u' = none ∧ followFrame m r u' (p.drop (2 * k' + 2)) = none

/-- R141: DECODE consumes PIN and POVF; it fails with PulseOverflow if durations were lost, with NoProtocolMatched if
no protocol fits, and else publishes the first fit in ascending id as a whole Receiver State. -/
def Obligations.DecodePublishesTheFirstFit : Prop :=
  decodeCmd 0x00000030#32 = some .decode ∧
  ∀ s : State,
    (s.povf = true → exec .decode s = .next { s with pin := [], povf := false, err := .pulseOverflow }) ∧
    (s.povf = false →
      (∀ r ∈ s.rom, tryProtocol s.params.minBits r (s.pin.map BitVec.toNat) = none) →
      exec .decode s = .next { s with pin := [], povf := false, err := .noProtocolMatched }) ∧
    (∀ (j : Nat) (r : Protocol) (u : Nat) (bits : List Bool), s.povf = false →
      s.rom[j]? = some r → tryProtocol s.params.minBits r (s.pin.map BitVec.toNat) = some (u, bits) →
      (∀ (j' : Nat) (r' : Protocol), j' < j → s.rom[j']? = some r' →
        tryProtocol s.params.minBits r' (s.pin.map BitVec.toNat) = none) →
      exec .decode s = .next
        { s with
          pin := []
          povf := false
          err := .ok
          rx := some
            { proto := BitVec.ofNat 8 (j + 1)
              delay := BitVec.ofNat 32 u
              bitlen := BitVec.ofNat 7 bits.length
              value := BitVec.ofNat 64 (bitsToNat bits)
              raw := s.pin } })

/-- R140: of two protocols with the same six multiples the lower id wins, so no DECODE publishes the higher one (with
the default table, never protocol 12). -/
def Obligations.LowerIdWinsATie : Prop :=
  (∀ (s : State) (i j : Nat) (ri rj : Protocol), s.cfg.wf = true → i < j → s.rom[i]? = some ri →
    s.rom[j]? = some rj → sameShapes ri rj →
    ∃ t, exec .decode s = .next t ∧ (t.err = .ok → ∃ x, t.rx = some x ∧ x.proto.toNat ≠ j + 1)) ∧
  (∀ s : State, s.rom = defaultProtoTable →
    ∃ t, exec .decode s = .next t ∧ (t.err = .ok → ∃ x, t.rx = some x ∧ x.proto ≠ 12#8))

/-- Every train of the encoder with any record of the default table, at any pulse length and with MIN_BITS to 64 bits,
is read back by that record: its unit is the pulse length and its bits are the bits sent. -/
def Obligations.DefaultTrainsRoundTrip : Prop :=
  ∀ (r : Protocol) (L m : Nat) (bits : List Bool), r ∈ defaultProtoTable → 1 ≤ L → L ≤ 65535 → 1 ≤ m →
    m ≤ bits.length → bits.length ≤ 64 →
    tryProtocol m r (trainDurations r L bits) = some (L, bits)

/-- W1 to W3 for every code: with the default protocol 1 active at any pulse length, SENDVAL and a DECODE of the
durations it left publish protocol 1, that pulse length, the bit count and the value. -/
def Obligations.ProtocolOneLoopsBack : Prop :=
  ∀ (s : State) (r : Protocol) (rs : List Protocol) (bits : List Bool) (len : BitVec 7),
    defaultProtoTable.head? = some r → s.rom = r :: rs → s.actProto = 1#8 → 1 ≤ s.actPlen.toNat →
    1 ≤ s.params.minBits → s.params.minBits ≤ bits.length → bits.length ≤ 64 → len.toNat = bits.length →
    bitsToNat bits = 2 ^ 32 * s.valHi.toNat + s.valLo.toNat →
    ∃ t, exec (.sendval len) s = .next t ∧ t.err = .ok ∧
      exec .decode { t with pin := t.txbuf.map (fun e => e.duration.setWidth 32), povf := false } = .next
        { t with
          pin := []
          povf := false
          err := .ok
          rx := some
            { proto := 1#8
              delay := s.actPlen.setWidth 32
              bitlen := len
              value := BitVec.ofNat 64 (2 ^ 32 * s.valHi.toNat + s.valLo.toNat)
              raw := t.txbuf.map (fun e => e.duration.setWidth 32) } }

/-! ## The receiver, the control commands and the register window -/

/-- R150: NOP sets ERR to 0 and changes nothing else. -/
def Obligations.NopOnlyClearsErr : Prop :=
  decodeCmd 0x00000000#32 = some .nop ∧ ∀ s : State, exec .nop s = .next { s with err := .ok }

/-- R147: RESETRX makes RX invalid, so that STATUS.RXV reads 0 and a read of an RX view is a fault, and changes
nothing else but ERR; a DECODE that then fails leaves RX invalid. -/
def Obligations.ResetrxInvalidatesRx : Prop :=
  decodeCmd 0x00000032#32 = some .resetrx ∧
  ∀ s : State, exec .resetrx s = .next { s with rx := none, err := .ok } ∧
    ({ s with rx := none, err := .ok } : State).statusWord.getLsbD 4 = false ∧
    (s.povf = false → s.aovf = false → ({ s with rx := none, err := .ok } : State).statusWord = 0#32) ∧
    (∀ reg, isRxView reg = true →
      exec (.busRead reg) { s with rx := none, err := .ok } = .fault (.rxInvalidRead reg)) ∧
    ∀ (q t : State), q.rx = none → exec .decode q = .next t → t.err ≠ .ok → t.rx = none

/-- R149: CLRARG empties ARGSTR and clears AOVF. -/
def Obligations.ClrargEmptiesArgstr : Prop :=
  decodeCmd 0x00000040#32 = some .clrarg ∧
  ∀ s : State, exec .clrarg s = .next { s with argstr := [], aovf := false, err := .ok }

/-- R148: an ARG_CHAR write pushes the low byte of the word, or sets AOVF if ARGSTR is full; ERR stays. -/
def Obligations.ArgCharPushesOrOverflows : Prop :=
  ∀ (s : State) (w : Word),
    (s.argstr.length < s.params.maxArg →
      exec (.wrArgChar w) s = .next { s with argstr := s.argstr ++ [BitVec.ofNat 8 w.toNat] }) ∧
    (s.params.maxArg ≤ s.argstr.length → exec (.wrArgChar w) s = .next { s with aovf := true })

/-- R30, R70, R151: what every register that is no RX view reads as. The word goes to the response line, the model's
own field (log 1), and nothing else changes. Lengths stand in bits 15:0, the count of protocols in bits 7:0. -/
def Obligations.BusReadOfEveryPlainRegister : Prop :=
  ∀ s : State,
    let answers (reg : Reg) (w : Word) : Prop := exec (.busRead reg) s = .next { s with resp := .data w }
    answers .cmd 0#32 ∧ answers .argChar 0#32 ∧ answers .pulseIn 0#32 ∧ (∀ k, answers (.reserved k) 0#32) ∧
    answers .status
      (BitVec.ofNat 32 (64 * s.aovf.toNat + 32 * s.povf.toNat + 16 * s.rx.isSome.toNat + s.err.code.toNat)) ∧
    answers .valLo s.valLo ∧ answers .valHi s.valHi ∧
    answers .argLen (BitVec.ofNat 32 (s.argstr.length % 65536)) ∧
    answers .pinLen (BitVec.ofNat 32 (s.pin.length % 65536)) ∧
    answers .actProto (BitVec.ofNat 32 s.actProto.toNat) ∧ answers .actPlen (BitVec.ofNat 32 s.actPlen.toNat) ∧
    answers .protoCount (BitVec.ofNat 32 (s.rom.length % 256)) ∧
    answers .lkTiming s.lkTiming ∧ answers .lkSync s.lkSync ∧ answers .lkBits s.lkBits ∧
    answers .txLen (BitVec.ofNat 32 (s.txbuf.length % 65536)) ∧
    answers .txIdx (BitVec.ofNat 32 s.txIdx.toNat) ∧ answers .rxRawIdx (BitVec.ofNat 32 s.rxRawIdx.toNat) ∧
    (∀ e, s.txbuf[s.txIdx.toNat]? = some e →
      answers .txData (BitVec.ofNat 32 (2 ^ 31 * e.level.toNat + e.duration.toNat))) ∧
    (s.txbuf.length ≤ s.txIdx.toNat → answers .txData 0#32)

/-- R50 to R55, R57, R64, R151: what every RX view reads as while RX is valid, and that reading one while RX is not
valid is a fault. -/
def Obligations.BusReadOfEveryRxView : Prop :=
  (∀ (s : State) (x : RxResult), s.rx = some x →
    let answers (reg : Reg) (w : Word) : Prop := exec (.busRead reg) s = .next { s with resp := .data w }
    answers .rxProto (BitVec.ofNat 32 x.proto.toNat) ∧ answers .rxDelay x.delay ∧
    answers .rxBitlen (BitVec.ofNat 32 x.bitlen.toNat) ∧
    answers .rxValLo (BitVec.ofNat 32 (x.value.toNat % 2 ^ 32)) ∧
    answers .rxValHi (BitVec.ofNat 32 (x.value.toNat / 2 ^ 32)) ∧
    answers .rxRawlen (BitVec.ofNat 32 (x.raw.length % 65536)) ∧
    (∀ d, x.raw[s.rxRawIdx.toNat]? = some d → answers .rxRawData d) ∧
    (x.raw.length ≤ s.rxRawIdx.toNat → answers .rxRawData 0#32)) ∧
  (∀ (s : State) (reg : Reg), s.rx = none → isRxView reg = true →
    exec (.busRead reg) s = .fault (.rxInvalidRead reg))

/-- R76: a read changes no state but the response line, so that repeating it gives the same word. -/
def Obligations.ReadsHaveNoSideEffect : Prop :=
  ∀ (s : State) (reg : Reg), (isRxView reg = true → s.rxValid = true) →
    ∃ w, exec (.busRead reg) s = .next { s with resp := .data w } ∧
      exec (.busRead reg) { s with resp := .data w } = .next { s with resp := .data w }

/-- R70, R152: what a write to every register does: CMD, ARG_CHAR and PULSE_IN carry instructions of their own, four
operand registers are stored, and every other write is ignored. -/
def Obligations.BusWriteOfEveryRegister : Prop :=
  (∀ (base : Nat) (w : Word),
    (∀ i, decodeCmd w = some i → decode base (writeAccess base .cmd w) = .instr i) ∧
    (decodeCmd w = none → decode base (writeAccess base .cmd w) = .reject .illegalCommand) ∧
    decode base (writeAccess base .argChar w) = .instr (.wrArgChar w) ∧
    decode base (writeAccess base .pulseIn w) = .instr (.wrPulseIn w)) ∧
  ∀ (s : State) (w : Word),
    exec (.busWrite .valLo w) s = .next { s with valLo := w } ∧
    exec (.busWrite .valHi w) s = .next { s with valHi := w } ∧
    exec (.busWrite .txIdx w) s = .next { s with txIdx := BitVec.ofNat 16 w.toNat } ∧
    exec (.busWrite .rxRawIdx w) s = .next { s with rxRawIdx := BitVec.ofNat 16 w.toNat } ∧
    ∀ reg, reg ∉ [.cmd, .argChar, .pulseIn, .valLo, .valHi, .txIdx, .rxRawIdx] →
      exec (.busWrite reg w) s = .next s

/-! ## Rules of the whole machine -/

/-- R154, R155: every command that completes leaves a code of its row of R154 in ERR, and no bus read or write
changes ERR. -/
def Obligations.ErrIsWrittenByCommandsOnly : Prop :=
  ∀ (i : Instr) (s t : State), exec i s = .next t →
    (busOperation i = true → t.err = s.err) ∧ (busOperation i = false → t.err ∈ mayRaise i)

/-- R157: what a failing command leaves: ERR and, by its class, the consumed buffer and an empty TXBUF. -/
def Obligations.FailedCommandLeavesNoPartialResult : Prop :=
  ∀ (i : Instr) (s t : State), busOperation i = false → exec i s = .next t → t.err ≠ .ok →
    ((encodeClass i = true ∧ consumesArg i = true) →
      t = { s with argstr := [], aovf := false, txbuf := [], err := t.err }) ∧
    ((encodeClass i = true ∧ consumesArg i = false) → t = { s with txbuf := [], err := t.err }) ∧
    (i = .decode → t = { s with pin := [], povf := false, err := t.err }) ∧
    ((encodeClass i = false ∧ i ≠ .decode) → t = { s with err := t.err })

/-- R60: only the encode-class commands write TXBUF. -/
def Obligations.OnlyEncodeClassWritesTxbuf : Prop :=
  ∀ (i : Instr) (s t : State), encodeClass i = false → exec i s = .next t → t.txbuf = s.txbuf

/-- R61, R141, R176: RX is written whole by a DECODE that succeeds and invalidated by RESETRX; nothing else, a failing
DECODE among them, changes it. -/
def Obligations.OnlyDecodeAndResetrxWriteRx : Prop :=
  ∀ (i : Instr) (s t : State), exec i s = .next t →
    (i ≠ .decode → i ≠ .resetrx → t.rx = s.rx) ∧ (i = .decode → t.err ≠ .ok → t.rx = s.rx)

/-- R149's example and R97 for every string and every train: `ARGS "s"` leaves ARGSTR = s, and `PULSES [...]` leaves
PIN = the durations, whatever stood there before, when they fit. -/
def Obligations.ArgsAndPulsesLinesFillTheBuffers : Prop :=
  (∀ (s : State) (str : List Byte), s.inbox = [] → str.length ≤ s.params.maxArg →
    runSteps (str.length + 1) (s.postLine (.args str)) =
      .next { s with argstr := str, aovf := false, err := .ok, resp := .ack }) ∧
  (∀ (s : State) (ds : List Word), s.inbox = [] → ds.length ≤ s.params.maxPulses →
    runSteps (ds.length + 1) (s.postLine (.pulses ds)) =
      .next { s with pin := ds, povf := false, err := .ok, resp := .ack })

/-- R158, R180: from a state with the invariants, while the host keeps its side of the bus contract, the step answers
a next state: every command completes and no failure stops the block. -/
def Obligations.EveryStepCompletes : Prop :=
  ∀ s : State, StateInv s → HostObeys s → ∃ t, step s = .next t

/-- While every access waiting is an aligned 32-bit access that reads no RX view, runs of every length are safe and keep
the invariants. -/
def Obligations.ObedientRunsAreSafe : Prop :=
  ∀ (k : Nat) (s : State), StateInv s → HostObeysAlways s →
    SafeRun k s ∧ ∀ t, runSteps k s = .next t → StateInv t

/-- R165: a step of one instance of a platform leaves every other instance as it was. -/
def Obligations.InstancesShareNoState : Prop :=
  ∀ (p : Platform) (k : Nat) (s t : State), p.instances[k]? = some s → step s = .next t →
    ∃ q, p.stepAt k = .next q ∧ q.instances[k]? = some t ∧ q.instances.length = p.instances.length ∧
      ∀ j, j ≠ k → q.instances[j]? = p.instances[j]?

/-- R101: every build the spec allows has protocol 1's fixed values and a one pair other than 1:3, and where MIN_BITS
admits 24 bits the fixture comes back: with protocol 1 at 350 microseconds, SENDTS "00000FFF0F0F" and a DECODE of the
durations it left publish protocol 1, 24 bits and the value 5393. That a MIN_BITS above 24 counts as 24 in what a build
may be is the model's inference (log 15). -/
def Obligations.WellFormedBuildsKeepTheFixture : Prop :=
  (∀ c : Config, c.wf = true →
    ∃ (r : Protocol) (rs : List Protocol), c.protoTable = r :: rs ∧ r.pulseLength = 350#16 ∧
      r.zeroHigh = 1#8 ∧ r.zeroLow = 3#8 ∧ r.syncHigh = 1#8 ∧ r.syncLow = 31#8 ∧ r.invertedSignal = false ∧
      ¬ (r.oneHigh = 1#8 ∧ r.oneLow = 3#8)) ∧
  ∀ s : State, s.cfg.wf = true → s.params.minBits ≤ 24 → s.actProto = 1#8 → s.actPlen = 350#16 → s.aovf = false →
    s.argstr = fixtureArg →
    ∃ t, exec .sendts s = .next t ∧ t.err = .ok ∧ t.txbuf.length = 50 ∧
      ∃ (u : State) (x : RxResult),
        exec .decode { t with pin := t.txbuf.map (fun e => e.duration.setWidth 32), povf := false } = .next u ∧
        u.err = .ok ∧ u.rx = some x ∧ x.proto = 1#8 ∧ x.bitlen = 24#7 ∧ x.value = 5393#64
end

