-- ==== Sys2Proof/Laws/Build.lean ====
section
/-! SUPPORT. What a well-formed build is, said once. -/

namespace Sys2Proof

open Sys2Proof.Machine

theorem Config.wf_iff {c : Config} : c.wf = true ↔ c.rangesOk = true ∧ c.fixtureDecodes = true := by
  simp [Config.wf]

/-- The ranges of R7, R10, R13, R14 and R68, and R99 for every record. -/
theorem Config.ranges_of_wf {c : Config} (h : c.wf = true) :
    c.base % 128 = 0 ∧ 1 ≤ c.nProto ∧ c.nProto ≤ 255 ∧ 1 ≤ c.minBits ∧ c.minBits ≤ 64 ∧ 64 ≤ c.maxArg ∧
      c.maxArg ≤ 65535 ∧ 130 ≤ c.maxPulses ∧ c.maxPulses ≤ 65535 ∧ ∀ r ∈ c.protoTable, r.wf = true := by
  have hr := (Config.wf_iff.1 h).1
  simp only [Config.rangesOk, Bool.and_eq_true, beq_iff_eq, decide_eq_true_eq, List.all_eq_true] at hr
  tauto

/-- R99: no field of a well-formed record is zero. -/
theorem Protocol.wf_iff {r : Protocol} :
    r.wf = true ↔ r.pulseLength ≠ 0#16 ∧ r.syncHigh ≠ 0#8 ∧ r.syncLow ≠ 0#8 ∧ r.zeroHigh ≠ 0#8 ∧
      r.zeroLow ≠ 0#8 ∧ r.oneHigh ≠ 0#8 ∧ r.oneLow ≠ 0#8 := by
  simp [Protocol.wf, and_assoc]

/-- R101: record 1 of a well-formed build has the values listed there, and decodes the fixture. -/
theorem Config.fixture_of_wf {c : Config} (h : c.wf = true) :
    ∃ (r : Protocol) (rs : List Protocol), c.protoTable = r :: rs ∧
      r = ⟨350#16, 1#8, 31#8, 1#8, 3#8, r.oneHigh, r.oneLow, false⟩ ∧
      ∃ u, tryProtocol (min c.minBits 24) r (trainDurations r 350 (natToBits 5393 24)) =
        some (u, natToBits 5393 24) := by
  obtain ⟨hr, hf⟩ := Config.wf_iff.1 h
  unfold Config.fixtureDecodes at hf
  match ht : c.protoTable with
  | [] => simp [ht] at hf
  | r :: rs =>
    refine ⟨r, rs, rfl, ?_, ?_⟩
    · have hk : r.keepsFixture = true := by simp_all [Config.rangesOk]
      cases r
      simp_all [Protocol.keepsFixture]
    · simpa [ht] using hf

/-- The ranges of a state's build, in the state's own fields. -/
theorem Machine.StateInv.ranges {s : State} (h : StateInv s) :
    s.params.base % 128 = 0 ∧ 1 ≤ s.rom.length ∧ s.rom.length ≤ 255 ∧ 1 ≤ s.params.minBits ∧ s.params.minBits ≤ 64 ∧
      64 ≤ s.params.maxArg ∧ s.params.maxArg ≤ 65535 ∧ 130 ≤ s.params.maxPulses ∧ s.params.maxPulses ≤ 65535 ∧
      ∀ r ∈ s.rom, r.wf = true :=
  Config.ranges_of_wf h.cfg_wf

end Sys2Proof
end

