-- ==== Sys2Proof/Laws/Decode.lean ====
section
/-! SUPPORT. Small facts of the decoder: opcodes, lanes and the register map. -/

namespace Sys2Proof

/-- A word that matches a row has the row's opcode in bits 7:0 (R87). -/
theorem opcode_of_match {w mask pattern : Word} (h : w &&& mask = pattern) (hm : mask &&& 0xFF#32 = 0xFF#32) :
    w &&& 0xFF#32 = pattern &&& 0xFF#32 := by
  rw [← h, BitVec.and_assoc, hm]

/-- A word matches no row of another opcode. -/
theorem not_match_of_opcode {w opc : Word} (h : w &&& 0xFF#32 = opc) (mask pattern : Word)
    (hm : mask &&& 0xFF#32 = 0xFF#32) (hp : pattern &&& 0xFF#32 ≠ opc) : w &&& mask ≠ pattern := by
  intro h'
  exact hp (by rw [← opcode_of_match h' hm, h])

theorem decodeRows_cons (w : Word) (row : CmdRow) (rows : List CmdRow) :
    decodeRows w (row :: rows) =
      if w &&& row.mask = row.pattern then some (row.build w) else decodeRows w rows := rfl

theorem decodeRows_nil (w : Word) : decodeRows w [] = none := rfl

/-- What a table of rows decodes a word to is what a row that the word matches builds. -/
theorem decodeRows_some {w : Word} {i : Instr} :
    ∀ {rows : List CmdRow}, decodeRows w rows = some i →
      ∃ row ∈ rows, w &&& row.mask = row.pattern ∧ row.build w = i
  | [], h => by cases h
  | row :: rows, h => by
    rw [decodeRows_cons] at h
    split_ifs at h with hm
    · exact ⟨row, List.mem_cons_self, hm, Option.some.inj h⟩
    · obtain ⟨row', hr, h'⟩ := decodeRows_some h
      exact ⟨row', List.mem_cons_of_mem _ hr, h'⟩

/-- A word that no row matches decodes to nothing. -/
theorem decodeRows_none {w : Word} :
    ∀ {rows : List CmdRow}, decodeRows w rows = none ↔ ∀ row ∈ rows, w &&& row.mask ≠ row.pattern
  | [] => by simp [decodeRows]
  | row :: rows => by
    rw [decodeRows_cons]
    split_ifs with hm
    · simp [hm]
    · simp [hm, decodeRows_none (rows := rows)]

@[simp] theorem toLanes_length (w : Word) : (toLanes w).length = 4 := rfl

/-! ## Fields -/

/-- The bits of a field: those of its value, from `lo` on. -/
@[simp] theorem getLsbD_place {n : Nat} (v : BitVec n) (lo i : Nat) :
    (place v lo).getLsbD i = (decide (i < 32) && !decide (i < lo) && v.getLsbD (i - lo)) := by
  by_cases h : i < 32
  · simp [place, h]
  · simp [place, h]

@[simp] theorem getLsbD_placeBit (b : Bool) (lo i : Nat) :
    (placeBit b lo).getLsbD i = (decide (i < 32) && decide (i = lo) && b) := by
  rw [placeBit, getLsbD_place]
  by_cases h1 : i < 32 <;> by_cases h2 : i = lo <;> by_cases h3 : i < lo <;> simp [h1, h2, h3, BitVec.getLsbD_ofBool]
  all_goals omega

@[simp] theorem getElem_place {n : Nat} (v : BitVec n) (lo i : Nat) (hi : i < 32) :
    (place v lo)[i] = (!decide (i < lo) && v.getLsbD (i - lo)) := by
  rw [← BitVec.getLsbD_eq_getElem, getLsbD_place]
  simp [hi]

@[simp] theorem getElem_placeBit (b : Bool) (lo i : Nat) (hi : i < 32) :
    (placeBit b lo)[i] = (decide (i = lo) && b) := by
  rw [← BitVec.getLsbD_eq_getElem, getLsbD_placeBit]
  simp [hi]

/-- A field placed above a smaller word adds to it. -/
theorem toNat_place_or {n : Nat} (v : BitVec n) (lo : Nat) (w : Word) (hv : v.toNat * 2 ^ lo < 2 ^ 32)
    (hw : w.toNat < 2 ^ lo) : (place v lo ||| w).toNat = 2 ^ lo * v.toNat + w.toNat := by
  have hs : v.toNat < 2 ^ 32 := lt_of_le_of_lt (Nat.le_mul_of_pos_right _ (Nat.two_pow_pos lo)) hv
  rw [BitVec.toNat_or, place, BitVec.toNat_shiftLeft, BitVec.toNat_setWidth, Nat.mod_eq_of_lt hs, Nat.shiftLeft_eq,
    Nat.mod_eq_of_lt hv, Nat.mul_comm, Nat.two_pow_add_eq_or_of_lt hw]

/-- A field at bit 0 is its value. -/
theorem toNat_place_zero {n : Nat} (v : BitVec n) (hn : n ≤ 32) : (place v 0).toNat = v.toNat := by
  have : v.toNat < 2 ^ 32 := lt_of_lt_of_le v.isLt (Nat.pow_le_pow_right (by decide) hn)
  simpa [place] using this

/-! ## Lanes -/

/-- The word of its own lanes (R71). -/
@[simp] theorem ofLanes_toLanes (w : Word) : ofLanes (toLanes w) = some w := by
  simp only [toLanes, ofLanes, Option.some.injEq]
  apply BitVec.eq_of_getLsbD_eq
  intro i hi
  interval_cases i <;> simp

/-- Four lanes are the lanes of the word they carry. -/
theorem lanes_of_ofLanes {lanes : List Byte} {w : Word} (h : ofLanes lanes = some w) : lanes = toLanes w := by
  unfold ofLanes at h
  split at h
  · cases h
    simp only [toLanes, List.cons.injEq, and_true]
    refine ⟨?_, ?_, ?_, ?_⟩ <;>
      (apply BitVec.eq_of_getLsbD_eq
       intro i hi
       interval_cases i <;> simp)
  · cases h

theorem ofLanes_isSome_of_length {lanes : List Byte} (h : lanes.length = 4) : ∃ w, ofLanes lanes = some w := by
  match lanes, h with
  | [b0, b1, b2, b3], _ => exact ⟨_, rfl⟩

/-- The register map holds every register at its index (R69, R70). -/
theorem regMap_index (r : Reg) : regMap[r.index]? = some r := by
  cases r
  case reserved k => fin_cases k <;> rfl
  all_goals rfl

theorem index_lt (r : Reg) : r.index < 32 := by
  cases r
  case reserved k => simp only [Reg.index]; omega
  all_goals simp [Reg.index]

/-- The register at an index has that index. -/
theorem index_of_regMap {k : Nat} {r : Reg} (h : regMap[k]? = some r) : r.index = k := by
  have hk : k < 32 := by
    by_contra hc
    rw [List.getElem?_eq_none (by simpa [regMap] using Nat.le_of_not_lt hc)] at h
    cases h
  interval_cases k <;> (simp [regMap] at h; subst h; rfl)

/-- A 32-bit access at a register's offset reaches it (R68, R69). -/
theorem locate_offset (base : Nat) (r : Reg) : locate base (base + r.offset) 4 = .ok r := by
  have h := index_lt r
  have hlo : ¬ (base + r.offset < base ∨ base + 128 ≤ base + r.offset) := by simp only [Reg.offset]; omega
  have hd : (base + r.offset - base) / 4 = r.index := by simp only [Reg.offset]; omega
  have hm : ¬ (base + r.offset - base) % 4 ≠ 0 := by simp only [Reg.offset]; omega
  simp only [locate, hlo, hm, hd, regMap_index, if_false, ne_eq, not_true_eq_false]

/-- Where an access reaches a register, it is 32 bits wide and at the register's offset. -/
theorem locate_ok {base addr width : Nat} {r : Reg} (h : locate base addr width = .ok r) :
    width = 4 ∧ addr = base + r.offset := by
  unfold locate at h
  split_ifs at h with h1 h2 h3
  split at h
  · next q hq =>
    cases h
    have := index_of_regMap hq
    refine ⟨not_not.mp h2, ?_⟩
    simp only [Reg.offset, this]
    omega
  · cases h

/-- What a write of a word to a register decodes to. -/
theorem decode_writeAccess (base : Nat) (r : Reg) (w : Word) :
    decode base (writeAccess base r w) = decodeWrite r w := by
  simp [decode, writeAccess, Access.addr, Access.width, locate_offset]

/-- What a read of a register decodes to. -/
theorem decode_readAccess (base : Nat) (r : Reg) : decode base (readAccess base r) = .instr (.busRead r) := by
  simp [decode, readAccess, Access.addr, Access.width, locate_offset]

end Sys2Proof
end

