-- ==== Sys2Proof/Laws/State.lean ====
section
/-! SUPPORT. One lemma per field per named update of the state, so that no proof unfolds a record update. -/

namespace Sys2Proof.Machine

variable (s : State)

/-! ### cfg, the build -/

@[simp] theorem State.cfg_protoTable : s.cfg.protoTable = s.rom := rfl
@[simp] theorem State.cfg_toParams : s.cfg.toParams = s.params := rfl
@[simp] theorem State.cfg_nProto : s.cfg.nProto = s.rom.length := rfl

/-! ### setErr -/

@[simp] theorem State.setErr_cfg (e : ErrCode) : (s.setErr e).cfg = s.cfg := rfl
@[simp] theorem State.setErr_rom (e : ErrCode) : (s.setErr e).rom = s.rom := rfl
@[simp] theorem State.setErr_params (e : ErrCode) : (s.setErr e).params = s.params := rfl
@[simp] theorem State.setErr_err (e : ErrCode) : (s.setErr e).err = e := rfl
@[simp] theorem State.setErr_povf (e : ErrCode) : (s.setErr e).povf = s.povf := rfl
@[simp] theorem State.setErr_aovf (e : ErrCode) : (s.setErr e).aovf = s.aovf := rfl
@[simp] theorem State.setErr_valLo (e : ErrCode) : (s.setErr e).valLo = s.valLo := rfl
@[simp] theorem State.setErr_valHi (e : ErrCode) : (s.setErr e).valHi = s.valHi := rfl
@[simp] theorem State.setErr_argstr (e : ErrCode) : (s.setErr e).argstr = s.argstr := rfl
@[simp] theorem State.setErr_pin (e : ErrCode) : (s.setErr e).pin = s.pin := rfl
@[simp] theorem State.setErr_actProto (e : ErrCode) : (s.setErr e).actProto = s.actProto := rfl
@[simp] theorem State.setErr_actPlen (e : ErrCode) : (s.setErr e).actPlen = s.actPlen := rfl
@[simp] theorem State.setErr_lkTiming (e : ErrCode) : (s.setErr e).lkTiming = s.lkTiming := rfl
@[simp] theorem State.setErr_lkSync (e : ErrCode) : (s.setErr e).lkSync = s.lkSync := rfl
@[simp] theorem State.setErr_lkBits (e : ErrCode) : (s.setErr e).lkBits = s.lkBits := rfl
@[simp] theorem State.setErr_txbuf (e : ErrCode) : (s.setErr e).txbuf = s.txbuf := rfl
@[simp] theorem State.setErr_txIdx (e : ErrCode) : (s.setErr e).txIdx = s.txIdx := rfl
@[simp] theorem State.setErr_rx (e : ErrCode) : (s.setErr e).rx = s.rx := rfl
@[simp] theorem State.setErr_rxRawIdx (e : ErrCode) : (s.setErr e).rxRawIdx = s.rxRawIdx := rfl
@[simp] theorem State.setErr_inbox (e : ErrCode) : (s.setErr e).inbox = s.inbox := rfl
@[simp] theorem State.setErr_resp (e : ErrCode) : (s.setErr e).resp = s.resp := rfl

/-! ### setAovf -/

@[simp] theorem State.setAovf_cfg : s.setAovf.cfg = s.cfg := rfl
@[simp] theorem State.setAovf_rom : s.setAovf.rom = s.rom := rfl
@[simp] theorem State.setAovf_params : s.setAovf.params = s.params := rfl
@[simp] theorem State.setAovf_err : s.setAovf.err = s.err := rfl
@[simp] theorem State.setAovf_povf : s.setAovf.povf = s.povf := rfl
@[simp] theorem State.setAovf_aovf : s.setAovf.aovf = true := rfl
@[simp] theorem State.setAovf_valLo : s.setAovf.valLo = s.valLo := rfl
@[simp] theorem State.setAovf_valHi : s.setAovf.valHi = s.valHi := rfl
@[simp] theorem State.setAovf_argstr : s.setAovf.argstr = s.argstr := rfl
@[simp] theorem State.setAovf_pin : s.setAovf.pin = s.pin := rfl
@[simp] theorem State.setAovf_actProto : s.setAovf.actProto = s.actProto := rfl
@[simp] theorem State.setAovf_actPlen : s.setAovf.actPlen = s.actPlen := rfl
@[simp] theorem State.setAovf_lkTiming : s.setAovf.lkTiming = s.lkTiming := rfl
@[simp] theorem State.setAovf_lkSync : s.setAovf.lkSync = s.lkSync := rfl
@[simp] theorem State.setAovf_lkBits : s.setAovf.lkBits = s.lkBits := rfl
@[simp] theorem State.setAovf_txbuf : s.setAovf.txbuf = s.txbuf := rfl
@[simp] theorem State.setAovf_txIdx : s.setAovf.txIdx = s.txIdx := rfl
@[simp] theorem State.setAovf_rx : s.setAovf.rx = s.rx := rfl
@[simp] theorem State.setAovf_rxRawIdx : s.setAovf.rxRawIdx = s.rxRawIdx := rfl
@[simp] theorem State.setAovf_inbox : s.setAovf.inbox = s.inbox := rfl
@[simp] theorem State.setAovf_resp : s.setAovf.resp = s.resp := rfl

/-! ### setPovf -/

@[simp] theorem State.setPovf_cfg : s.setPovf.cfg = s.cfg := rfl
@[simp] theorem State.setPovf_rom : s.setPovf.rom = s.rom := rfl
@[simp] theorem State.setPovf_params : s.setPovf.params = s.params := rfl
@[simp] theorem State.setPovf_err : s.setPovf.err = s.err := rfl
@[simp] theorem State.setPovf_povf : s.setPovf.povf = true := rfl
@[simp] theorem State.setPovf_aovf : s.setPovf.aovf = s.aovf := rfl
@[simp] theorem State.setPovf_valLo : s.setPovf.valLo = s.valLo := rfl
@[simp] theorem State.setPovf_valHi : s.setPovf.valHi = s.valHi := rfl
@[simp] theorem State.setPovf_argstr : s.setPovf.argstr = s.argstr := rfl
@[simp] theorem State.setPovf_pin : s.setPovf.pin = s.pin := rfl
@[simp] theorem State.setPovf_actProto : s.setPovf.actProto = s.actProto := rfl
@[simp] theorem State.setPovf_actPlen : s.setPovf.actPlen = s.actPlen := rfl
@[simp] theorem State.setPovf_lkTiming : s.setPovf.lkTiming = s.lkTiming := rfl
@[simp] theorem State.setPovf_lkSync : s.setPovf.lkSync = s.lkSync := rfl
@[simp] theorem State.setPovf_lkBits : s.setPovf.lkBits = s.lkBits := rfl
@[simp] theorem State.setPovf_txbuf : s.setPovf.txbuf = s.txbuf := rfl
@[simp] theorem State.setPovf_txIdx : s.setPovf.txIdx = s.txIdx := rfl
@[simp] theorem State.setPovf_rx : s.setPovf.rx = s.rx := rfl
@[simp] theorem State.setPovf_rxRawIdx : s.setPovf.rxRawIdx = s.rxRawIdx := rfl
@[simp] theorem State.setPovf_inbox : s.setPovf.inbox = s.inbox := rfl
@[simp] theorem State.setPovf_resp : s.setPovf.resp = s.resp := rfl

/-! ### clearArg -/

@[simp] theorem State.clearArg_cfg : s.clearArg.cfg = s.cfg := rfl
@[simp] theorem State.clearArg_rom : s.clearArg.rom = s.rom := rfl
@[simp] theorem State.clearArg_params : s.clearArg.params = s.params := rfl
@[simp] theorem State.clearArg_err : s.clearArg.err = s.err := rfl
@[simp] theorem State.clearArg_povf : s.clearArg.povf = s.povf := rfl
@[simp] theorem State.clearArg_aovf : s.clearArg.aovf = false := rfl
@[simp] theorem State.clearArg_valLo : s.clearArg.valLo = s.valLo := rfl
@[simp] theorem State.clearArg_valHi : s.clearArg.valHi = s.valHi := rfl
@[simp] theorem State.clearArg_argstr : s.clearArg.argstr = [] := rfl
@[simp] theorem State.clearArg_pin : s.clearArg.pin = s.pin := rfl
@[simp] theorem State.clearArg_actProto : s.clearArg.actProto = s.actProto := rfl
@[simp] theorem State.clearArg_actPlen : s.clearArg.actPlen = s.actPlen := rfl
@[simp] theorem State.clearArg_lkTiming : s.clearArg.lkTiming = s.lkTiming := rfl
@[simp] theorem State.clearArg_lkSync : s.clearArg.lkSync = s.lkSync := rfl
@[simp] theorem State.clearArg_lkBits : s.clearArg.lkBits = s.lkBits := rfl
@[simp] theorem State.clearArg_txbuf : s.clearArg.txbuf = s.txbuf := rfl
@[simp] theorem State.clearArg_txIdx : s.clearArg.txIdx = s.txIdx := rfl
@[simp] theorem State.clearArg_rx : s.clearArg.rx = s.rx := rfl
@[simp] theorem State.clearArg_rxRawIdx : s.clearArg.rxRawIdx = s.rxRawIdx := rfl
@[simp] theorem State.clearArg_inbox : s.clearArg.inbox = s.inbox := rfl
@[simp] theorem State.clearArg_resp : s.clearArg.resp = s.resp := rfl

/-! ### clearPin -/

@[simp] theorem State.clearPin_cfg : s.clearPin.cfg = s.cfg := rfl
@[simp] theorem State.clearPin_rom : s.clearPin.rom = s.rom := rfl
@[simp] theorem State.clearPin_params : s.clearPin.params = s.params := rfl
@[simp] theorem State.clearPin_err : s.clearPin.err = s.err := rfl
@[simp] theorem State.clearPin_povf : s.clearPin.povf = false := rfl
@[simp] theorem State.clearPin_aovf : s.clearPin.aovf = s.aovf := rfl
@[simp] theorem State.clearPin_valLo : s.clearPin.valLo = s.valLo := rfl
@[simp] theorem State.clearPin_valHi : s.clearPin.valHi = s.valHi := rfl
@[simp] theorem State.clearPin_argstr : s.clearPin.argstr = s.argstr := rfl
@[simp] theorem State.clearPin_pin : s.clearPin.pin = [] := rfl
@[simp] theorem State.clearPin_actProto : s.clearPin.actProto = s.actProto := rfl
@[simp] theorem State.clearPin_actPlen : s.clearPin.actPlen = s.actPlen := rfl
@[simp] theorem State.clearPin_lkTiming : s.clearPin.lkTiming = s.lkTiming := rfl
@[simp] theorem State.clearPin_lkSync : s.clearPin.lkSync = s.lkSync := rfl
@[simp] theorem State.clearPin_lkBits : s.clearPin.lkBits = s.lkBits := rfl
@[simp] theorem State.clearPin_txbuf : s.clearPin.txbuf = s.txbuf := rfl
@[simp] theorem State.clearPin_txIdx : s.clearPin.txIdx = s.txIdx := rfl
@[simp] theorem State.clearPin_rx : s.clearPin.rx = s.rx := rfl
@[simp] theorem State.clearPin_rxRawIdx : s.clearPin.rxRawIdx = s.rxRawIdx := rfl
@[simp] theorem State.clearPin_inbox : s.clearPin.inbox = s.inbox := rfl
@[simp] theorem State.clearPin_resp : s.clearPin.resp = s.resp := rfl

/-! ### setTxbuf -/

@[simp] theorem State.setTxbuf_cfg (t : List TxEntry) : (s.setTxbuf t).cfg = s.cfg := rfl
@[simp] theorem State.setTxbuf_rom (t : List TxEntry) : (s.setTxbuf t).rom = s.rom := rfl
@[simp] theorem State.setTxbuf_params (t : List TxEntry) : (s.setTxbuf t).params = s.params := rfl
@[simp] theorem State.setTxbuf_err (t : List TxEntry) : (s.setTxbuf t).err = s.err := rfl
@[simp] theorem State.setTxbuf_povf (t : List TxEntry) : (s.setTxbuf t).povf = s.povf := rfl
@[simp] theorem State.setTxbuf_aovf (t : List TxEntry) : (s.setTxbuf t).aovf = s.aovf := rfl
@[simp] theorem State.setTxbuf_valLo (t : List TxEntry) : (s.setTxbuf t).valLo = s.valLo := rfl
@[simp] theorem State.setTxbuf_valHi (t : List TxEntry) : (s.setTxbuf t).valHi = s.valHi := rfl
@[simp] theorem State.setTxbuf_argstr (t : List TxEntry) : (s.setTxbuf t).argstr = s.argstr := rfl
@[simp] theorem State.setTxbuf_pin (t : List TxEntry) : (s.setTxbuf t).pin = s.pin := rfl
@[simp] theorem State.setTxbuf_actProto (t : List TxEntry) : (s.setTxbuf t).actProto = s.actProto := rfl
@[simp] theorem State.setTxbuf_actPlen (t : List TxEntry) : (s.setTxbuf t).actPlen = s.actPlen := rfl
@[simp] theorem State.setTxbuf_lkTiming (t : List TxEntry) : (s.setTxbuf t).lkTiming = s.lkTiming := rfl
@[simp] theorem State.setTxbuf_lkSync (t : List TxEntry) : (s.setTxbuf t).lkSync = s.lkSync := rfl
@[simp] theorem State.setTxbuf_lkBits (t : List TxEntry) : (s.setTxbuf t).lkBits = s.lkBits := rfl
@[simp] theorem State.setTxbuf_txbuf (t : List TxEntry) : (s.setTxbuf t).txbuf = t := rfl
@[simp] theorem State.setTxbuf_txIdx (t : List TxEntry) : (s.setTxbuf t).txIdx = s.txIdx := rfl
@[simp] theorem State.setTxbuf_rx (t : List TxEntry) : (s.setTxbuf t).rx = s.rx := rfl
@[simp] theorem State.setTxbuf_rxRawIdx (t : List TxEntry) : (s.setTxbuf t).rxRawIdx = s.rxRawIdx := rfl
@[simp] theorem State.setTxbuf_inbox (t : List TxEntry) : (s.setTxbuf t).inbox = s.inbox := rfl
@[simp] theorem State.setTxbuf_resp (t : List TxEntry) : (s.setTxbuf t).resp = s.resp := rfl

/-! ### appendArg -/

@[simp] theorem State.appendArg_cfg (c : Byte) : (s.appendArg c).cfg = s.cfg := rfl
@[simp] theorem State.appendArg_rom (c : Byte) : (s.appendArg c).rom = s.rom := rfl
@[simp] theorem State.appendArg_params (c : Byte) : (s.appendArg c).params = s.params := rfl
@[simp] theorem State.appendArg_err (c : Byte) : (s.appendArg c).err = s.err := rfl
@[simp] theorem State.appendArg_povf (c : Byte) : (s.appendArg c).povf = s.povf := rfl
@[simp] theorem State.appendArg_aovf (c : Byte) : (s.appendArg c).aovf = s.aovf := rfl
@[simp] theorem State.appendArg_valLo (c : Byte) : (s.appendArg c).valLo = s.valLo := rfl
@[simp] theorem State.appendArg_valHi (c : Byte) : (s.appendArg c).valHi = s.valHi := rfl
@[simp] theorem State.appendArg_argstr (c : Byte) : (s.appendArg c).argstr = s.argstr ++ [c] := rfl
@[simp] theorem State.appendArg_pin (c : Byte) : (s.appendArg c).pin = s.pin := rfl
@[simp] theorem State.appendArg_actProto (c : Byte) : (s.appendArg c).actProto = s.actProto := rfl
@[simp] theorem State.appendArg_actPlen (c : Byte) : (s.appendArg c).actPlen = s.actPlen := rfl
@[simp] theorem State.appendArg_lkTiming (c : Byte) : (s.appendArg c).lkTiming = s.lkTiming := rfl
@[simp] theorem State.appendArg_lkSync (c : Byte) : (s.appendArg c).lkSync = s.lkSync := rfl
@[simp] theorem State.appendArg_lkBits (c : Byte) : (s.appendArg c).lkBits = s.lkBits := rfl
@[simp] theorem State.appendArg_txbuf (c : Byte) : (s.appendArg c).txbuf = s.txbuf := rfl
@[simp] theorem State.appendArg_txIdx (c : Byte) : (s.appendArg c).txIdx = s.txIdx := rfl
@[simp] theorem State.appendArg_rx (c : Byte) : (s.appendArg c).rx = s.rx := rfl
@[simp] theorem State.appendArg_rxRawIdx (c : Byte) : (s.appendArg c).rxRawIdx = s.rxRawIdx := rfl
@[simp] theorem State.appendArg_inbox (c : Byte) : (s.appendArg c).inbox = s.inbox := rfl
@[simp] theorem State.appendArg_resp (c : Byte) : (s.appendArg c).resp = s.resp := rfl

/-! ### appendPin -/

@[simp] theorem State.appendPin_cfg (d : BitVec 32) : (s.appendPin d).cfg = s.cfg := rfl
@[simp] theorem State.appendPin_rom (d : BitVec 32) : (s.appendPin d).rom = s.rom := rfl
@[simp] theorem State.appendPin_params (d : BitVec 32) : (s.appendPin d).params = s.params := rfl
@[simp] theorem State.appendPin_err (d : BitVec 32) : (s.appendPin d).err = s.err := rfl
@[simp] theorem State.appendPin_povf (d : BitVec 32) : (s.appendPin d).povf = s.povf := rfl
@[simp] theorem State.appendPin_aovf (d : BitVec 32) : (s.appendPin d).aovf = s.aovf := rfl
@[simp] theorem State.appendPin_valLo (d : BitVec 32) : (s.appendPin d).valLo = s.valLo := rfl
@[simp] theorem State.appendPin_valHi (d : BitVec 32) : (s.appendPin d).valHi = s.valHi := rfl
@[simp] theorem State.appendPin_argstr (d : BitVec 32) : (s.appendPin d).argstr = s.argstr := rfl
@[simp] theorem State.appendPin_pin (d : BitVec 32) : (s.appendPin d).pin = s.pin ++ [d] := rfl
@[simp] theorem State.appendPin_actProto (d : BitVec 32) : (s.appendPin d).actProto = s.actProto := rfl
@[simp] theorem State.appendPin_actPlen (d : BitVec 32) : (s.appendPin d).actPlen = s.actPlen := rfl
@[simp] theorem State.appendPin_lkTiming (d : BitVec 32) : (s.appendPin d).lkTiming = s.lkTiming := rfl
@[simp] theorem State.appendPin_lkSync (d : BitVec 32) : (s.appendPin d).lkSync = s.lkSync := rfl
@[simp] theorem State.appendPin_lkBits (d : BitVec 32) : (s.appendPin d).lkBits = s.lkBits := rfl
@[simp] theorem State.appendPin_txbuf (d : BitVec 32) : (s.appendPin d).txbuf = s.txbuf := rfl
@[simp] theorem State.appendPin_txIdx (d : BitVec 32) : (s.appendPin d).txIdx = s.txIdx := rfl
@[simp] theorem State.appendPin_rx (d : BitVec 32) : (s.appendPin d).rx = s.rx := rfl
@[simp] theorem State.appendPin_rxRawIdx (d : BitVec 32) : (s.appendPin d).rxRawIdx = s.rxRawIdx := rfl
@[simp] theorem State.appendPin_inbox (d : BitVec 32) : (s.appendPin d).inbox = s.inbox := rfl
@[simp] theorem State.appendPin_resp (d : BitVec 32) : (s.appendPin d).resp = s.resp := rfl

/-! ### setValLo -/

@[simp] theorem State.setValLo_cfg (w : Word) : (s.setValLo w).cfg = s.cfg := rfl
@[simp] theorem State.setValLo_rom (w : Word) : (s.setValLo w).rom = s.rom := rfl
@[simp] theorem State.setValLo_params (w : Word) : (s.setValLo w).params = s.params := rfl
@[simp] theorem State.setValLo_err (w : Word) : (s.setValLo w).err = s.err := rfl
@[simp] theorem State.setValLo_povf (w : Word) : (s.setValLo w).povf = s.povf := rfl
@[simp] theorem State.setValLo_aovf (w : Word) : (s.setValLo w).aovf = s.aovf := rfl
@[simp] theorem State.setValLo_valLo (w : Word) : (s.setValLo w).valLo = w := rfl
@[simp] theorem State.setValLo_valHi (w : Word) : (s.setValLo w).valHi = s.valHi := rfl
@[simp] theorem State.setValLo_argstr (w : Word) : (s.setValLo w).argstr = s.argstr := rfl
@[simp] theorem State.setValLo_pin (w : Word) : (s.setValLo w).pin = s.pin := rfl
@[simp] theorem State.setValLo_actProto (w : Word) : (s.setValLo w).actProto = s.actProto := rfl
@[simp] theorem State.setValLo_actPlen (w : Word) : (s.setValLo w).actPlen = s.actPlen := rfl
@[simp] theorem State.setValLo_lkTiming (w : Word) : (s.setValLo w).lkTiming = s.lkTiming := rfl
@[simp] theorem State.setValLo_lkSync (w : Word) : (s.setValLo w).lkSync = s.lkSync := rfl
@[simp] theorem State.setValLo_lkBits (w : Word) : (s.setValLo w).lkBits = s.lkBits := rfl
@[simp] theorem State.setValLo_txbuf (w : Word) : (s.setValLo w).txbuf = s.txbuf := rfl
@[simp] theorem State.setValLo_txIdx (w : Word) : (s.setValLo w).txIdx = s.txIdx := rfl
@[simp] theorem State.setValLo_rx (w : Word) : (s.setValLo w).rx = s.rx := rfl
@[simp] theorem State.setValLo_rxRawIdx (w : Word) : (s.setValLo w).rxRawIdx = s.rxRawIdx := rfl
@[simp] theorem State.setValLo_inbox (w : Word) : (s.setValLo w).inbox = s.inbox := rfl
@[simp] theorem State.setValLo_resp (w : Word) : (s.setValLo w).resp = s.resp := rfl

/-! ### setValHi -/

@[simp] theorem State.setValHi_cfg (w : Word) : (s.setValHi w).cfg = s.cfg := rfl
@[simp] theorem State.setValHi_rom (w : Word) : (s.setValHi w).rom = s.rom := rfl
@[simp] theorem State.setValHi_params (w : Word) : (s.setValHi w).params = s.params := rfl
@[simp] theorem State.setValHi_err (w : Word) : (s.setValHi w).err = s.err := rfl
@[simp] theorem State.setValHi_povf (w : Word) : (s.setValHi w).povf = s.povf := rfl
@[simp] theorem State.setValHi_aovf (w : Word) : (s.setValHi w).aovf = s.aovf := rfl
@[simp] theorem State.setValHi_valLo (w : Word) : (s.setValHi w).valLo = s.valLo := rfl
@[simp] theorem State.setValHi_valHi (w : Word) : (s.setValHi w).valHi = w := rfl
@[simp] theorem State.setValHi_argstr (w : Word) : (s.setValHi w).argstr = s.argstr := rfl
@[simp] theorem State.setValHi_pin (w : Word) : (s.setValHi w).pin = s.pin := rfl
@[simp] theorem State.setValHi_actProto (w : Word) : (s.setValHi w).actProto = s.actProto := rfl
@[simp] theorem State.setValHi_actPlen (w : Word) : (s.setValHi w).actPlen = s.actPlen := rfl
@[simp] theorem State.setValHi_lkTiming (w : Word) : (s.setValHi w).lkTiming = s.lkTiming := rfl
@[simp] theorem State.setValHi_lkSync (w : Word) : (s.setValHi w).lkSync = s.lkSync := rfl
@[simp] theorem State.setValHi_lkBits (w : Word) : (s.setValHi w).lkBits = s.lkBits := rfl
@[simp] theorem State.setValHi_txbuf (w : Word) : (s.setValHi w).txbuf = s.txbuf := rfl
@[simp] theorem State.setValHi_txIdx (w : Word) : (s.setValHi w).txIdx = s.txIdx := rfl
@[simp] theorem State.setValHi_rx (w : Word) : (s.setValHi w).rx = s.rx := rfl
@[simp] theorem State.setValHi_rxRawIdx (w : Word) : (s.setValHi w).rxRawIdx = s.rxRawIdx := rfl
@[simp] theorem State.setValHi_inbox (w : Word) : (s.setValHi w).inbox = s.inbox := rfl
@[simp] theorem State.setValHi_resp (w : Word) : (s.setValHi w).resp = s.resp := rfl

/-! ### setTxIdx -/

@[simp] theorem State.setTxIdx_cfg (i : BitVec 16) : (s.setTxIdx i).cfg = s.cfg := rfl
@[simp] theorem State.setTxIdx_rom (i : BitVec 16) : (s.setTxIdx i).rom = s.rom := rfl
@[simp] theorem State.setTxIdx_params (i : BitVec 16) : (s.setTxIdx i).params = s.params := rfl
@[simp] theorem State.setTxIdx_err (i : BitVec 16) : (s.setTxIdx i).err = s.err := rfl
@[simp] theorem State.setTxIdx_povf (i : BitVec 16) : (s.setTxIdx i).povf = s.povf := rfl
@[simp] theorem State.setTxIdx_aovf (i : BitVec 16) : (s.setTxIdx i).aovf = s.aovf := rfl
@[simp] theorem State.setTxIdx_valLo (i : BitVec 16) : (s.setTxIdx i).valLo = s.valLo := rfl
@[simp] theorem State.setTxIdx_valHi (i : BitVec 16) : (s.setTxIdx i).valHi = s.valHi := rfl
@[simp] theorem State.setTxIdx_argstr (i : BitVec 16) : (s.setTxIdx i).argstr = s.argstr := rfl
@[simp] theorem State.setTxIdx_pin (i : BitVec 16) : (s.setTxIdx i).pin = s.pin := rfl
@[simp] theorem State.setTxIdx_actProto (i : BitVec 16) : (s.setTxIdx i).actProto = s.actProto := rfl
@[simp] theorem State.setTxIdx_actPlen (i : BitVec 16) : (s.setTxIdx i).actPlen = s.actPlen := rfl
@[simp] theorem State.setTxIdx_lkTiming (i : BitVec 16) : (s.setTxIdx i).lkTiming = s.lkTiming := rfl
@[simp] theorem State.setTxIdx_lkSync (i : BitVec 16) : (s.setTxIdx i).lkSync = s.lkSync := rfl
@[simp] theorem State.setTxIdx_lkBits (i : BitVec 16) : (s.setTxIdx i).lkBits = s.lkBits := rfl
@[simp] theorem State.setTxIdx_txbuf (i : BitVec 16) : (s.setTxIdx i).txbuf = s.txbuf := rfl
@[simp] theorem State.setTxIdx_txIdx (i : BitVec 16) : (s.setTxIdx i).txIdx = i := rfl
@[simp] theorem State.setTxIdx_rx (i : BitVec 16) : (s.setTxIdx i).rx = s.rx := rfl
@[simp] theorem State.setTxIdx_rxRawIdx (i : BitVec 16) : (s.setTxIdx i).rxRawIdx = s.rxRawIdx := rfl
@[simp] theorem State.setTxIdx_inbox (i : BitVec 16) : (s.setTxIdx i).inbox = s.inbox := rfl
@[simp] theorem State.setTxIdx_resp (i : BitVec 16) : (s.setTxIdx i).resp = s.resp := rfl

/-! ### setRxRawIdx -/

@[simp] theorem State.setRxRawIdx_cfg (i : BitVec 16) : (s.setRxRawIdx i).cfg = s.cfg := rfl
@[simp] theorem State.setRxRawIdx_rom (i : BitVec 16) : (s.setRxRawIdx i).rom = s.rom := rfl
@[simp] theorem State.setRxRawIdx_params (i : BitVec 16) : (s.setRxRawIdx i).params = s.params := rfl
@[simp] theorem State.setRxRawIdx_err (i : BitVec 16) : (s.setRxRawIdx i).err = s.err := rfl
@[simp] theorem State.setRxRawIdx_povf (i : BitVec 16) : (s.setRxRawIdx i).povf = s.povf := rfl
@[simp] theorem State.setRxRawIdx_aovf (i : BitVec 16) : (s.setRxRawIdx i).aovf = s.aovf := rfl
@[simp] theorem State.setRxRawIdx_valLo (i : BitVec 16) : (s.setRxRawIdx i).valLo = s.valLo := rfl
@[simp] theorem State.setRxRawIdx_valHi (i : BitVec 16) : (s.setRxRawIdx i).valHi = s.valHi := rfl
@[simp] theorem State.setRxRawIdx_argstr (i : BitVec 16) : (s.setRxRawIdx i).argstr = s.argstr := rfl
@[simp] theorem State.setRxRawIdx_pin (i : BitVec 16) : (s.setRxRawIdx i).pin = s.pin := rfl
@[simp] theorem State.setRxRawIdx_actProto (i : BitVec 16) : (s.setRxRawIdx i).actProto = s.actProto := rfl
@[simp] theorem State.setRxRawIdx_actPlen (i : BitVec 16) : (s.setRxRawIdx i).actPlen = s.actPlen := rfl
@[simp] theorem State.setRxRawIdx_lkTiming (i : BitVec 16) : (s.setRxRawIdx i).lkTiming = s.lkTiming := rfl
@[simp] theorem State.setRxRawIdx_lkSync (i : BitVec 16) : (s.setRxRawIdx i).lkSync = s.lkSync := rfl
@[simp] theorem State.setRxRawIdx_lkBits (i : BitVec 16) : (s.setRxRawIdx i).lkBits = s.lkBits := rfl
@[simp] theorem State.setRxRawIdx_txbuf (i : BitVec 16) : (s.setRxRawIdx i).txbuf = s.txbuf := rfl
@[simp] theorem State.setRxRawIdx_txIdx (i : BitVec 16) : (s.setRxRawIdx i).txIdx = s.txIdx := rfl
@[simp] theorem State.setRxRawIdx_rx (i : BitVec 16) : (s.setRxRawIdx i).rx = s.rx := rfl
@[simp] theorem State.setRxRawIdx_rxRawIdx (i : BitVec 16) : (s.setRxRawIdx i).rxRawIdx = i := rfl
@[simp] theorem State.setRxRawIdx_inbox (i : BitVec 16) : (s.setRxRawIdx i).inbox = s.inbox := rfl
@[simp] theorem State.setRxRawIdx_resp (i : BitVec 16) : (s.setRxRawIdx i).resp = s.resp := rfl

/-! ### setResp -/

@[simp] theorem State.setResp_cfg (p : Response) : (s.setResp p).cfg = s.cfg := rfl
@[simp] theorem State.setResp_rom (p : Response) : (s.setResp p).rom = s.rom := rfl
@[simp] theorem State.setResp_params (p : Response) : (s.setResp p).params = s.params := rfl
@[simp] theorem State.setResp_err (p : Response) : (s.setResp p).err = s.err := rfl
@[simp] theorem State.setResp_povf (p : Response) : (s.setResp p).povf = s.povf := rfl
@[simp] theorem State.setResp_aovf (p : Response) : (s.setResp p).aovf = s.aovf := rfl
@[simp] theorem State.setResp_valLo (p : Response) : (s.setResp p).valLo = s.valLo := rfl
@[simp] theorem State.setResp_valHi (p : Response) : (s.setResp p).valHi = s.valHi := rfl
@[simp] theorem State.setResp_argstr (p : Response) : (s.setResp p).argstr = s.argstr := rfl
@[simp] theorem State.setResp_pin (p : Response) : (s.setResp p).pin = s.pin := rfl
@[simp] theorem State.setResp_actProto (p : Response) : (s.setResp p).actProto = s.actProto := rfl
@[simp] theorem State.setResp_actPlen (p : Response) : (s.setResp p).actPlen = s.actPlen := rfl
@[simp] theorem State.setResp_lkTiming (p : Response) : (s.setResp p).lkTiming = s.lkTiming := rfl
@[simp] theorem State.setResp_lkSync (p : Response) : (s.setResp p).lkSync = s.lkSync := rfl
@[simp] theorem State.setResp_lkBits (p : Response) : (s.setResp p).lkBits = s.lkBits := rfl
@[simp] theorem State.setResp_txbuf (p : Response) : (s.setResp p).txbuf = s.txbuf := rfl
@[simp] theorem State.setResp_txIdx (p : Response) : (s.setResp p).txIdx = s.txIdx := rfl
@[simp] theorem State.setResp_rx (p : Response) : (s.setResp p).rx = s.rx := rfl
@[simp] theorem State.setResp_rxRawIdx (p : Response) : (s.setResp p).rxRawIdx = s.rxRawIdx := rfl
@[simp] theorem State.setResp_inbox (p : Response) : (s.setResp p).inbox = s.inbox := rfl
@[simp] theorem State.setResp_resp (p : Response) : (s.setResp p).resp = p := rfl

/-! ### setActive -/

@[simp] theorem State.setActive_cfg (id : BitVec 8) (plen : BitVec 16) : (s.setActive id plen).cfg = s.cfg := rfl
@[simp] theorem State.setActive_rom (id : BitVec 8) (plen : BitVec 16) : (s.setActive id plen).rom = s.rom := rfl
@[simp] theorem State.setActive_params (id : BitVec 8) (plen : BitVec 16) : (s.setActive id plen).params = s.params := rfl
@[simp] theorem State.setActive_err (id : BitVec 8) (plen : BitVec 16) : (s.setActive id plen).err = s.err := rfl
@[simp] theorem State.setActive_povf (id : BitVec 8) (plen : BitVec 16) : (s.setActive id plen).povf = s.povf := rfl
@[simp] theorem State.setActive_aovf (id : BitVec 8) (plen : BitVec 16) : (s.setActive id plen).aovf = s.aovf := rfl
@[simp] theorem State.setActive_valLo (id : BitVec 8) (plen : BitVec 16) : (s.setActive id plen).valLo = s.valLo := rfl
@[simp] theorem State.setActive_valHi (id : BitVec 8) (plen : BitVec 16) : (s.setActive id plen).valHi = s.valHi := rfl
@[simp] theorem State.setActive_argstr (id : BitVec 8) (plen : BitVec 16) : (s.setActive id plen).argstr = s.argstr := rfl
@[simp] theorem State.setActive_pin (id : BitVec 8) (plen : BitVec 16) : (s.setActive id plen).pin = s.pin := rfl
@[simp] theorem State.setActive_actProto (id : BitVec 8) (plen : BitVec 16) : (s.setActive id plen).actProto = id := rfl
@[simp] theorem State.setActive_actPlen (id : BitVec 8) (plen : BitVec 16) : (s.setActive id plen).actPlen = plen := rfl
@[simp] theorem State.setActive_lkTiming (id : BitVec 8) (plen : BitVec 16) : (s.setActive id plen).lkTiming = s.lkTiming := rfl
@[simp] theorem State.setActive_lkSync (id : BitVec 8) (plen : BitVec 16) : (s.setActive id plen).lkSync = s.lkSync := rfl
@[simp] theorem State.setActive_lkBits (id : BitVec 8) (plen : BitVec 16) : (s.setActive id plen).lkBits = s.lkBits := rfl
@[simp] theorem State.setActive_txbuf (id : BitVec 8) (plen : BitVec 16) : (s.setActive id plen).txbuf = s.txbuf := rfl
@[simp] theorem State.setActive_txIdx (id : BitVec 8) (plen : BitVec 16) : (s.setActive id plen).txIdx = s.txIdx := rfl
@[simp] theorem State.setActive_rx (id : BitVec 8) (plen : BitVec 16) : (s.setActive id plen).rx = s.rx := rfl
@[simp] theorem State.setActive_rxRawIdx (id : BitVec 8) (plen : BitVec 16) : (s.setActive id plen).rxRawIdx = s.rxRawIdx := rfl
@[simp] theorem State.setActive_inbox (id : BitVec 8) (plen : BitVec 16) : (s.setActive id plen).inbox = s.inbox := rfl
@[simp] theorem State.setActive_resp (id : BitVec 8) (plen : BitVec 16) : (s.setActive id plen).resp = s.resp := rfl

/-! ### setLookup -/

@[simp] theorem State.setLookup_cfg (id : BitVec 8) (r : Protocol) : (s.setLookup id r).cfg = s.cfg := rfl
@[simp] theorem State.setLookup_rom (id : BitVec 8) (r : Protocol) : (s.setLookup id r).rom = s.rom := rfl
@[simp] theorem State.setLookup_params (id : BitVec 8) (r : Protocol) : (s.setLookup id r).params = s.params := rfl
@[simp] theorem State.setLookup_err (id : BitVec 8) (r : Protocol) : (s.setLookup id r).err = s.err := rfl
@[simp] theorem State.setLookup_povf (id : BitVec 8) (r : Protocol) : (s.setLookup id r).povf = s.povf := rfl
@[simp] theorem State.setLookup_aovf (id : BitVec 8) (r : Protocol) : (s.setLookup id r).aovf = s.aovf := rfl
@[simp] theorem State.setLookup_valLo (id : BitVec 8) (r : Protocol) : (s.setLookup id r).valLo = s.valLo := rfl
@[simp] theorem State.setLookup_valHi (id : BitVec 8) (r : Protocol) : (s.setLookup id r).valHi = s.valHi := rfl
@[simp] theorem State.setLookup_argstr (id : BitVec 8) (r : Protocol) : (s.setLookup id r).argstr = s.argstr := rfl
@[simp] theorem State.setLookup_pin (id : BitVec 8) (r : Protocol) : (s.setLookup id r).pin = s.pin := rfl
@[simp] theorem State.setLookup_actProto (id : BitVec 8) (r : Protocol) : (s.setLookup id r).actProto = s.actProto := rfl
@[simp] theorem State.setLookup_actPlen (id : BitVec 8) (r : Protocol) : (s.setLookup id r).actPlen = s.actPlen := rfl
@[simp] theorem State.setLookup_lkTiming (id : BitVec 8) (r : Protocol) : (s.setLookup id r).lkTiming = lkTimingWord id r := rfl
@[simp] theorem State.setLookup_lkSync (id : BitVec 8) (r : Protocol) : (s.setLookup id r).lkSync = lkSyncWord r := rfl
@[simp] theorem State.setLookup_lkBits (id : BitVec 8) (r : Protocol) : (s.setLookup id r).lkBits = lkBitsWord r := rfl
@[simp] theorem State.setLookup_txbuf (id : BitVec 8) (r : Protocol) : (s.setLookup id r).txbuf = s.txbuf := rfl
@[simp] theorem State.setLookup_txIdx (id : BitVec 8) (r : Protocol) : (s.setLookup id r).txIdx = s.txIdx := rfl
@[simp] theorem State.setLookup_rx (id : BitVec 8) (r : Protocol) : (s.setLookup id r).rx = s.rx := rfl
@[simp] theorem State.setLookup_rxRawIdx (id : BitVec 8) (r : Protocol) : (s.setLookup id r).rxRawIdx = s.rxRawIdx := rfl
@[simp] theorem State.setLookup_inbox (id : BitVec 8) (r : Protocol) : (s.setLookup id r).inbox = s.inbox := rfl
@[simp] theorem State.setLookup_resp (id : BitVec 8) (r : Protocol) : (s.setLookup id r).resp = s.resp := rfl

/-! ### setRx -/

@[simp] theorem State.setRx_cfg (x : Option RxResult) : (s.setRx x).cfg = s.cfg := rfl
@[simp] theorem State.setRx_rom (x : Option RxResult) : (s.setRx x).rom = s.rom := rfl
@[simp] theorem State.setRx_params (x : Option RxResult) : (s.setRx x).params = s.params := rfl
@[simp] theorem State.setRx_err (x : Option RxResult) : (s.setRx x).err = s.err := rfl
@[simp] theorem State.setRx_povf (x : Option RxResult) : (s.setRx x).povf = s.povf := rfl
@[simp] theorem State.setRx_aovf (x : Option RxResult) : (s.setRx x).aovf = s.aovf := rfl
@[simp] theorem State.setRx_valLo (x : Option RxResult) : (s.setRx x).valLo = s.valLo := rfl
@[simp] theorem State.setRx_valHi (x : Option RxResult) : (s.setRx x).valHi = s.valHi := rfl
@[simp] theorem State.setRx_argstr (x : Option RxResult) : (s.setRx x).argstr = s.argstr := rfl
@[simp] theorem State.setRx_pin (x : Option RxResult) : (s.setRx x).pin = s.pin := rfl
@[simp] theorem State.setRx_actProto (x : Option RxResult) : (s.setRx x).actProto = s.actProto := rfl
@[simp] theorem State.setRx_actPlen (x : Option RxResult) : (s.setRx x).actPlen = s.actPlen := rfl
@[simp] theorem State.setRx_lkTiming (x : Option RxResult) : (s.setRx x).lkTiming = s.lkTiming := rfl
@[simp] theorem State.setRx_lkSync (x : Option RxResult) : (s.setRx x).lkSync = s.lkSync := rfl
@[simp] theorem State.setRx_lkBits (x : Option RxResult) : (s.setRx x).lkBits = s.lkBits := rfl
@[simp] theorem State.setRx_txbuf (x : Option RxResult) : (s.setRx x).txbuf = s.txbuf := rfl
@[simp] theorem State.setRx_txIdx (x : Option RxResult) : (s.setRx x).txIdx = s.txIdx := rfl
@[simp] theorem State.setRx_rx (x : Option RxResult) : (s.setRx x).rx = x := rfl
@[simp] theorem State.setRx_rxRawIdx (x : Option RxResult) : (s.setRx x).rxRawIdx = s.rxRawIdx := rfl
@[simp] theorem State.setRx_inbox (x : Option RxResult) : (s.setRx x).inbox = s.inbox := rfl
@[simp] theorem State.setRx_resp (x : Option RxResult) : (s.setRx x).resp = s.resp := rfl

/-! ### accept -/

@[simp] theorem State.accept_cfg (rest : List BusEvent) : (s.accept rest).cfg = s.cfg := rfl
@[simp] theorem State.accept_rom (rest : List BusEvent) : (s.accept rest).rom = s.rom := rfl
@[simp] theorem State.accept_params (rest : List BusEvent) : (s.accept rest).params = s.params := rfl
@[simp] theorem State.accept_err (rest : List BusEvent) : (s.accept rest).err = s.err := rfl
@[simp] theorem State.accept_povf (rest : List BusEvent) : (s.accept rest).povf = s.povf := rfl
@[simp] theorem State.accept_aovf (rest : List BusEvent) : (s.accept rest).aovf = s.aovf := rfl
@[simp] theorem State.accept_valLo (rest : List BusEvent) : (s.accept rest).valLo = s.valLo := rfl
@[simp] theorem State.accept_valHi (rest : List BusEvent) : (s.accept rest).valHi = s.valHi := rfl
@[simp] theorem State.accept_argstr (rest : List BusEvent) : (s.accept rest).argstr = s.argstr := rfl
@[simp] theorem State.accept_pin (rest : List BusEvent) : (s.accept rest).pin = s.pin := rfl
@[simp] theorem State.accept_actProto (rest : List BusEvent) : (s.accept rest).actProto = s.actProto := rfl
@[simp] theorem State.accept_actPlen (rest : List BusEvent) : (s.accept rest).actPlen = s.actPlen := rfl
@[simp] theorem State.accept_lkTiming (rest : List BusEvent) : (s.accept rest).lkTiming = s.lkTiming := rfl
@[simp] theorem State.accept_lkSync (rest : List BusEvent) : (s.accept rest).lkSync = s.lkSync := rfl
@[simp] theorem State.accept_lkBits (rest : List BusEvent) : (s.accept rest).lkBits = s.lkBits := rfl
@[simp] theorem State.accept_txbuf (rest : List BusEvent) : (s.accept rest).txbuf = s.txbuf := rfl
@[simp] theorem State.accept_txIdx (rest : List BusEvent) : (s.accept rest).txIdx = s.txIdx := rfl
@[simp] theorem State.accept_rx (rest : List BusEvent) : (s.accept rest).rx = s.rx := rfl
@[simp] theorem State.accept_rxRawIdx (rest : List BusEvent) : (s.accept rest).rxRawIdx = s.rxRawIdx := rfl
@[simp] theorem State.accept_inbox (rest : List BusEvent) : (s.accept rest).inbox = rest := rfl
@[simp] theorem State.accept_resp (rest : List BusEvent) : (s.accept rest).resp = .ack := rfl

/-! ### post -/

@[simp] theorem State.post_cfg (as : List Access) : (s.post as).cfg = s.cfg := rfl
@[simp] theorem State.post_rom (as : List Access) : (s.post as).rom = s.rom := rfl
@[simp] theorem State.post_params (as : List Access) : (s.post as).params = s.params := rfl
@[simp] theorem State.post_err (as : List Access) : (s.post as).err = s.err := rfl
@[simp] theorem State.post_povf (as : List Access) : (s.post as).povf = s.povf := rfl
@[simp] theorem State.post_aovf (as : List Access) : (s.post as).aovf = s.aovf := rfl
@[simp] theorem State.post_valLo (as : List Access) : (s.post as).valLo = s.valLo := rfl
@[simp] theorem State.post_valHi (as : List Access) : (s.post as).valHi = s.valHi := rfl
@[simp] theorem State.post_argstr (as : List Access) : (s.post as).argstr = s.argstr := rfl
@[simp] theorem State.post_pin (as : List Access) : (s.post as).pin = s.pin := rfl
@[simp] theorem State.post_actProto (as : List Access) : (s.post as).actProto = s.actProto := rfl
@[simp] theorem State.post_actPlen (as : List Access) : (s.post as).actPlen = s.actPlen := rfl
@[simp] theorem State.post_lkTiming (as : List Access) : (s.post as).lkTiming = s.lkTiming := rfl
@[simp] theorem State.post_lkSync (as : List Access) : (s.post as).lkSync = s.lkSync := rfl
@[simp] theorem State.post_lkBits (as : List Access) : (s.post as).lkBits = s.lkBits := rfl
@[simp] theorem State.post_txbuf (as : List Access) : (s.post as).txbuf = s.txbuf := rfl
@[simp] theorem State.post_txIdx (as : List Access) : (s.post as).txIdx = s.txIdx := rfl
@[simp] theorem State.post_rx (as : List Access) : (s.post as).rx = s.rx := rfl
@[simp] theorem State.post_rxRawIdx (as : List Access) : (s.post as).rxRawIdx = s.rxRawIdx := rfl
@[simp] theorem State.post_inbox (as : List Access) : (s.post as).inbox = s.inbox ++ as.map .access := rfl
@[simp] theorem State.post_resp (as : List Access) : (s.post as).resp = s.resp := rfl

/-! ### present -/

@[simp] theorem State.present_cfg (a : Access) : (s.present a).cfg = s.cfg := rfl
@[simp] theorem State.present_rom (a : Access) : (s.present a).rom = s.rom := rfl
@[simp] theorem State.present_params (a : Access) : (s.present a).params = s.params := rfl
@[simp] theorem State.present_err (a : Access) : (s.present a).err = s.err := rfl
@[simp] theorem State.present_povf (a : Access) : (s.present a).povf = s.povf := rfl
@[simp] theorem State.present_aovf (a : Access) : (s.present a).aovf = s.aovf := rfl
@[simp] theorem State.present_valLo (a : Access) : (s.present a).valLo = s.valLo := rfl
@[simp] theorem State.present_valHi (a : Access) : (s.present a).valHi = s.valHi := rfl
@[simp] theorem State.present_argstr (a : Access) : (s.present a).argstr = s.argstr := rfl
@[simp] theorem State.present_pin (a : Access) : (s.present a).pin = s.pin := rfl
@[simp] theorem State.present_actProto (a : Access) : (s.present a).actProto = s.actProto := rfl
@[simp] theorem State.present_actPlen (a : Access) : (s.present a).actPlen = s.actPlen := rfl
@[simp] theorem State.present_lkTiming (a : Access) : (s.present a).lkTiming = s.lkTiming := rfl
@[simp] theorem State.present_lkSync (a : Access) : (s.present a).lkSync = s.lkSync := rfl
@[simp] theorem State.present_lkBits (a : Access) : (s.present a).lkBits = s.lkBits := rfl
@[simp] theorem State.present_txbuf (a : Access) : (s.present a).txbuf = s.txbuf := rfl
@[simp] theorem State.present_txIdx (a : Access) : (s.present a).txIdx = s.txIdx := rfl
@[simp] theorem State.present_rx (a : Access) : (s.present a).rx = s.rx := rfl
@[simp] theorem State.present_rxRawIdx (a : Access) : (s.present a).rxRawIdx = s.rxRawIdx := rfl
@[simp] theorem State.present_inbox (a : Access) : (s.present a).inbox = .access a :: s.inbox := rfl
@[simp] theorem State.present_resp (a : Access) : (s.present a).resp = s.resp := rfl

end Sys2Proof.Machine
end

