-- ==== Sys2Proof/Laws/Ops.lean ====
section
/-! SUPPORT. What each shared operation can do, said once: a proof cites these lemmas instead of unfolding the
operation. -/

namespace Sys2Proof.Machine

/-! ## How a command ends -/

theorem succeed_eq (s : State) : succeed s = .next (s.setErr .ok) := rfl

theorem fail_eq (e : ErrCode) (s : State) : fail e s = .next (s.setErr e) := rfl

theorem encFail_eq (e : ErrCode) (s : State) : encFail e s = .next ((s.setTxbuf []).setErr e) := rfl

/-- If an encode answers a next state, a record is active and TXBUF holds its train. -/
theorem encodeBits_next {bits : List Bool} {s t : State} (h : encodeBits bits s = .next t) :
    ∃ r, s.activeRecord = some r ∧ t = (s.setTxbuf (pulseTrain r s.actPlen.toNat bits)).setErr .ok := by
  unfold encodeBits at h
  split at h
  · next r hr => exact ⟨r, hr, by simpa [succeed, eq_comm] using h⟩
  · cases h

theorem encodeBits_eq {bits : List Bool} {s : State} {r : Protocol} (h : s.activeRecord = some r) :
    encodeBits bits s = .next ((s.setTxbuf (pulseTrain r s.actPlen.toNat bits)).setErr .ok) := by
  simp [encodeBits, h, succeed]

/-! ## The Protocol Table -/

theorem romAt_eq_some {table : List Protocol} {id : BitVec 8} {r : Protocol} :
    romAt table id = some r ↔ 1 ≤ id.toNat ∧ table[id.toNat - 1]? = some r := by
  have hz : id = 0#8 ↔ id.toNat = 0 := by simp [BitVec.toNat_eq]
  unfold romAt
  split
  · next h => simp [hz.mp h]
  · next h =>
    have : 1 ≤ id.toNat := Nat.one_le_iff_ne_zero.mpr (mt hz.mpr h)
    simp [this]

theorem romAt_eq_none {table : List Protocol} {id : BitVec 8} :
    romAt table id = none ↔ id.toNat < 1 ∨ table.length < id.toNat := by
  have hz : id = 0#8 ↔ id.toNat = 0 := by simp [BitVec.toNat_eq]
  unfold romAt
  split
  · next h => simp [hz.mp h]
  · next h =>
    have : 1 ≤ id.toNat := Nat.one_le_iff_ne_zero.mpr (mt hz.mpr h)
    rw [List.getElem?_eq_none_iff]
    omega

/-! ## The push ports -/

theorem pushArg_cases (c : Byte) (s : State) :
    (s.argstr.length < s.params.maxArg ∧ pushArg c s = s.appendArg c) ∨
      (s.params.maxArg ≤ s.argstr.length ∧ pushArg c s = s.setAovf) := by
  unfold pushArg
  split
  · exact .inl ⟨‹_›, rfl⟩
  · exact .inr ⟨Nat.le_of_not_lt ‹_›, rfl⟩

theorem pushPulse_cases (d : BitVec 32) (s : State) :
    (s.pin.length < s.params.maxPulses ∧ pushPulse d s = s.appendPin d) ∨
      (s.params.maxPulses ≤ s.pin.length ∧ pushPulse d s = s.setPovf) := by
  unfold pushPulse
  split
  · exact .inl ⟨‹_›, rfl⟩
  · exact .inr ⟨Nat.le_of_not_lt ‹_›, rfl⟩

/-! ## Strings -/

/-- Every character is read, or one of them is malformed. -/
theorem readAll_eq_none {α : Type} {f : Byte → Option α} {cs : List Byte} :
    readAll f cs = none ↔ ∃ c ∈ cs, f c = none := by
  induction cs with
  | nil => simp [readAll]
  | cons c cs ih => cases hc : f c <;> cases hs : readAll f cs <;> simp_all [readAll]

/-- What is read has one item per character, in order. -/
theorem readAll_eq_some {α : Type} {f : Byte → Option α} {cs : List Byte} {xs : List α} :
    readAll f cs = some xs ↔ cs.map f = xs.map some := by
  induction cs generalizing xs with
  | nil => cases xs <;> simp [readAll]
  | cons c cs ih =>
    cases xs with
    | nil => cases hc : f c <;> cases hs : readAll f cs <;> simp [readAll, hc, hs]
    | cons x xs => cases hc : f c <;> cases hs : readAll f cs <;> simp_all [readAll]

theorem readAll_length {α : Type} {f : Byte → Option α} {cs : List Byte} {xs : List α}
    (h : readAll f cs = some xs) : xs.length = cs.length := by
  simpa using (congrArg List.length (readAll_eq_some.mp h)).symm

theorem digitOf_eq_none {c : Byte} : digitOf c = none ↔ c ≠ char0 ∧ c ≠ char1 ∧ c ≠ charF := by
  unfold digitOf
  split_ifs <;> simp_all

theorem bitOf_eq_none {c : Byte} : bitOf c = none ↔ c ≠ char0 ∧ c ≠ char1 := by
  unfold bitOf
  split_ifs <;> simp_all

/-! ## Bit patterns -/

@[simp] theorem digitBits_length (d : Digit) : (digitBits d).length = 2 := by cases d <;> rfl

@[simp] theorem natToBits_length (v n : Nat) : (natToBits v n).length = n := by
  induction n with
  | zero => rfl
  | succ n ih => simp [natToBits, ih]

theorem bitsToNat_lt (bs : List Bool) : bitsToNat bs < 2 ^ bs.length := by
  induction bs with
  | nil => simp [bitsToNat]
  | cons b bs ih =>
    simp only [bitsToNat, List.length_cons, pow_succ]
    cases b <;> simp <;> omega

/-! ## The register window -/

/-- A read has no value exactly where the register is a view of RX and RX is not valid. -/
theorem readReg_eq_none {s : State} {r : Reg} : s.readReg r = none ↔ isRxView r = true ∧ s.rxValid = false := by
  cases r <;> simp [State.readReg, isRxView, State.rxValid]

/-- A write never touches what is not an operand register, a push port or an overflow flag. -/
theorem writeReg_frame (s : State) (r : Reg) (w : Word) :
    (s.writeReg r w).rom = s.rom ∧ (s.writeReg r w).params = s.params ∧
      (s.writeReg r w).err = s.err ∧ (s.writeReg r w).actProto = s.actProto ∧
      (s.writeReg r w).actPlen = s.actPlen ∧ (s.writeReg r w).lkTiming = s.lkTiming ∧
      (s.writeReg r w).lkSync = s.lkSync ∧ (s.writeReg r w).lkBits = s.lkBits ∧
      (s.writeReg r w).txbuf = s.txbuf ∧ (s.writeReg r w).rx = s.rx ∧ (s.writeReg r w).inbox = s.inbox ∧
      (s.writeReg r w).resp = s.resp := by
  cases r
  case argChar =>
    rcases pushArg_cases (w.extractLsb' 0 8) s with ⟨-, h⟩ | ⟨-, h⟩ <;> simp [State.writeReg, h]
  case pulseIn => rcases pushPulse_cases w s with ⟨-, h⟩ | ⟨-, h⟩ <;> simp [State.writeReg, h]
  all_goals simp [State.writeReg]

/-! ## The decoder's walks -/

theorem allPairs_length {r : Protocol} {u : Nat} :
    ∀ {p : List Nat} {bits : List Bool}, allPairs r u p = some bits → p.length = 2 * bits.length
  | [], bits, h => by simp_all [allPairs]
  | [_], _, h => by simp [allPairs] at h
  | a :: b :: rest, bits, h => by
    simp only [allPairs] at h
    split at h
    · next x xs _ hxs =>
      have ih := allPairs_length hxs
      cases h
      simp only [List.length_cons]
      omega
    · cases h

/-- A following frame's walk splits what it is given: two durations for each bit, then what is left. -/
theorem followWalk_length (r : Protocol) (u : Nat) :
    ∀ p : List Nat, p.length = 2 * (followWalk r u p).1.length + (followWalk r u p).2.length
  | [] => by simp [followWalk]
  | [_] => by simp [followWalk]
  | a :: b :: rest => by
    have ih := followWalk_length r u rest
    simp only [followWalk]
    split <;> (simp_all; try omega)

/-- A frame that is accepted has a bit count in MIN_BITS .. 64 and a unit of at least 1. -/
theorem tryFrom_some {m : Nat} {r : Protocol} {p : List Nat} {u : Nat} {bits : List Bool} :
    ∀ {s : Nat} {rest : List Nat}, tryFrom m r p s rest = some (u, bits) →
      1 ≤ u ∧ m ≤ bits.length ∧ bits.length ≤ valueW
  | _, [], h => by simp [tryFrom] at h
  | _, [_], h => by simp [tryFrom] at h
  | s, a :: b :: rest, h => by
    simp only [tryFrom] at h
    split at h
    · exact tryFrom_some h
    · next v hv =>
      have hpos : 1 ≤ v := by
        simp only [syncMatch] at hv
        split at hv <;> simp_all
      split at h
      · next bs hl =>
        cases h
        simp only [leadFrame, bitCountOk] at hl
        split at hl <;> simp_all
        obtain ⟨hb, rfl⟩ := hl
        exact hb
      · split at h
        · next bs hf =>
          cases h
          simp only [followFrame, bitCountOk] at hf
          simp only [Option.ite_none_right_eq_some, Bool.and_eq_true, decide_eq_true_eq, Option.some.injEq] at hf
          obtain ⟨⟨-, hb⟩, rfl⟩ := hf
          exact ⟨hpos, hb⟩
        · exact tryFrom_some h

end Sys2Proof.Machine
end

