-- ==== Sys2Proof/Laws/Exec.lean ====
section
/-! SUPPORT. What each meaning can do, said once: if it answers a next state, then it is one of these. -/

namespace Sys2Proof.Machine

/-- A train is stored, and nothing else changes but ERR. -/
theorem encodeBits_cases {bits : List Bool} {s t : State} (h : encodeBits bits s = .next t) :
    ∃ tr, t = { s with txbuf := tr, err := .ok } := by
  obtain ⟨r, -, rfl⟩ := encodeBits_next h
  exact ⟨_, rfl⟩

theorem execSendts_cases {s t : State} (h : execSendts s = .next t) :
    (∃ e, (e = .invalidAddress ∨ e = .emptyCode) ∧ t = { s with argstr := [], aovf := false, txbuf := [], err := e }) ∨
      ∃ tr, t = { s with argstr := [], aovf := false, txbuf := tr, err := .ok } := by
  simp only [execSendts] at h
  split_ifs at h
  · cases h
    exact .inl ⟨_, .inr rfl, rfl⟩
  · cases h
    exact .inl ⟨_, .inl rfl, rfl⟩
  · cases h
    exact .inl ⟨_, .inl rfl, rfl⟩
  · split at h
    · cases h
      exact .inl ⟨_, .inl rfl, rfl⟩
    · exact .inr (encodeBits_cases h)

theorem execSendbin_cases {s t : State} (h : execSendbin s = .next t) :
    (∃ e, (e = .invalidAddress ∨ e = .emptyCode) ∧ t = { s with argstr := [], aovf := false, txbuf := [], err := e }) ∨
      ∃ tr, t = { s with argstr := [], aovf := false, txbuf := tr, err := .ok } := by
  simp only [execSendbin] at h
  split_ifs at h
  · cases h
    exact .inl ⟨_, .inr rfl, rfl⟩
  · cases h
    exact .inl ⟨_, .inl rfl, rfl⟩
  · cases h
    exact .inl ⟨_, .inl rfl, rfl⟩
  · split at h
    · cases h
      exact .inl ⟨_, .inl rfl, rfl⟩
    · exact .inr (encodeBits_cases h)

theorem execSwslide_cases {s t : State} {on : Bool} {glen : BitVec 4} (h : execSwslide on glen s = .next t) :
    (∃ e, e = .invalidAddress ∧ t = { s with argstr := [], aovf := false, txbuf := [], err := e }) ∨
      ∃ tr, t = { s with argstr := [], aovf := false, txbuf := tr, err := .ok } := by
  simp only [execSwslide] at h
  split_ifs at h
  · cases h
    exact .inl ⟨_, rfl, rfl⟩
  · split at h
    · cases h
      exact .inl ⟨_, rfl, rfl⟩
    · exact .inr (encodeBits_cases h)

theorem execSendval_cases {s t : State} {len : BitVec 7} (h : execSendval len s = .next t) :
    (∃ e, (e = .invalidAddress ∨ e = .emptyCode) ∧ t = { s with txbuf := [], err := e }) ∨ ∃ tr, t = { s with txbuf := tr, err := .ok } := by
  simp only [execSendval] at h
  split_ifs at h
  · cases h
    exact .inl ⟨_, .inr rfl, rfl⟩
  · cases h
    exact .inl ⟨_, .inl rfl, rfl⟩
  · cases h
    exact .inl ⟨_, .inl rfl, rfl⟩
  · exact .inr (encodeBits_cases h)

theorem execSwfamdev_cases {s t : State} {on : Bool} {chr dev : BitVec 8} (h : execSwfamdev on chr dev s = .next t) :
    (∃ e, e = .invalidAddress ∧ t = { s with txbuf := [], err := e }) ∨ ∃ tr, t = { s with txbuf := tr, err := .ok } := by
  simp only [execSwfamdev] at h
  split_ifs at h
  · cases h
    exact .inl ⟨_, rfl, rfl⟩
  · cases h
    exact .inl ⟨_, rfl, rfl⟩
  · exact .inr (encodeBits_cases h)

theorem execSwfamgrp_cases {s t : State} {on : Bool} {chr : BitVec 8} {grp dev : BitVec 4} (h : execSwfamgrp on chr grp dev s = .next t) :
    (∃ e, e = .invalidAddress ∧ t = { s with txbuf := [], err := e }) ∨ ∃ tr, t = { s with txbuf := tr, err := .ok } := by
  simp only [execSwfamgrp] at h
  split_ifs at h
  · cases h
    exact .inl ⟨_, rfl, rfl⟩
  · cases h
    exact .inl ⟨_, rfl, rfl⟩
  · cases h
    exact .inl ⟨_, rfl, rfl⟩
  · exact .inr (encodeBits_cases h)

theorem execDecode_cases {s t : State} (h : execDecode s = .next t) :
    (∃ e, (e = .pulseOverflow ∨ e = .noProtocolMatched) ∧ t = { s with pin := [], povf := false, err := e }) ∨
      ∃ x, decodeTrain s.params.minBits s.rom s.pin = some x ∧ s.povf = false ∧
        t = { s with pin := [], povf := false, rx := some x, err := .ok } := by
  simp only [execDecode] at h
  split_ifs at h
  · cases h
    exact .inl ⟨_, .inl rfl, rfl⟩
  · split at h
    · cases h
      exact .inr ⟨_, ‹_›, by simp_all, rfl⟩
    · cases h
      exact .inl ⟨_, .inr rfl, rfl⟩

theorem execSetproto_cases {id : BitVec 8} {plen : BitVec 16} {s t : State} (h : execSetproto id plen s = .next t) :
    t = { s with err := .unknownProtocol } ∨
      ∃ r, romAt s.rom id = some r ∧
        t = { s with actProto := id, actPlen := (if plen = 0#16 then r.pulseLength else plen), err := .ok } := by
  simp only [execSetproto] at h
  split at h
  · cases h
    exact .inl rfl
  · cases h
    exact .inr ⟨_, ‹_›, rfl⟩

theorem execLookup_cases {id : BitVec 8} {s t : State} (h : execLookup id s = .next t) :
    t = { s with err := .unknownProtocol } ∨
      ∃ r, romAt s.rom id = some r ∧
        t = { s with lkTiming := lkTimingWord id r, lkSync := lkSyncWord r, lkBits := lkBitsWord r, err := .ok } := by
  simp only [execLookup] at h
  split at h
  · cases h
    exact .inl rfl
  · cases h
    exact .inr ⟨_, ‹_›, rfl⟩

theorem execBusRead_cases {r : Reg} {s t : State} (h : execBusRead r s = .next t) :
    ∃ w, s.readReg r = some w ∧ t = { s with resp := .data w } := by
  simp only [execBusRead] at h
  split at h <;> cases h
  exact ⟨_, ‹_›, rfl⟩

theorem execBusWrite_cases {r : Reg} {w : Word} {s t : State} (h : execBusWrite r w s = .next t) :
    r ≠ .cmd ∧ t = s.writeReg r w := by
  cases r <;> first
    | (cases h; exact ⟨by simp, rfl⟩)
    | cases h

end Sys2Proof.Machine
end

