-- ==== Sys2Proof/Laws/PerInstr.lean ====
section
/-! SUPPORT. Facts about every instruction as syntax, one lemma per constructor. -/

namespace Sys2Proof.Laws.EncodedShape

/-- The access that carries an instruction is one 32-bit access of the window at an offset that is a multiple of 4
(20_memory R68, R73); it is a read for BUS_READ alone, and a write of CMD exactly for the instructions with a command
word (30_encoding R86). -/
def Statement (i : Instr) : Prop :=
  ∀ base : Nat, (encode base i).width = 4 ∧
    (∃ k, k < 32 ∧ (encode base i).addr = base + 4 * k) ∧
    ((∃ a n, encode base i = .read a n) ↔ ∃ r, i = .busRead r) ∧
    (∀ w, encodeCmd i = some w → encode base i = writeAccess base .cmd w)

theorem ofCmd {i : Instr} {w : Word} (h : encodeCmd i = some w)
    (he : ∀ base, encode base i = writeAccess base .cmd w) (hr : ∀ r, i ≠ .busRead r) : Statement i := by
  intro base
  rw [he]
  refine ⟨rfl, ⟨0, by omega, rfl⟩, ⟨?_, ?_⟩, ?_⟩
  · rintro ⟨a, n, e⟩
    simp [writeAccess] at e
  · rintro ⟨r, e⟩
    exact absurd e (hr r)
  · intro v hv
    rw [h] at hv
    cases hv
    rfl

theorem ofWrite {i : Instr} {w : Word} {r : Reg} (h : encodeCmd i = none)
    (he : ∀ base, encode base i = writeAccess base r w) (hr : ∀ q, i ≠ .busRead q) : Statement i := by
  intro base
  rw [he]
  refine ⟨rfl, ⟨r.index, Sys2Proof.index_lt r, rfl⟩, ⟨?_, ?_⟩, ?_⟩
  · rintro ⟨a, n, e⟩
    simp [writeAccess] at e
  · rintro ⟨q, e⟩
    exact absurd e (hr q)
  · intro v hv
    rw [h] at hv
    cases hv

theorem nop : Statement .nop := ofCmd rfl (fun _ => rfl) (by simp)

theorem setproto (id : BitVec 8) (plen : BitVec 16) : Statement (.setproto id plen) :=
  ofCmd rfl (fun _ => rfl) (by simp)

theorem lookup (id : BitVec 8) : Statement (.lookup id) := ofCmd rfl (fun _ => rfl) (by simp)

theorem sendts : Statement .sendts := ofCmd rfl (fun _ => rfl) (by simp)

theorem sendval (len : BitVec 7) : Statement (.sendval len) := ofCmd rfl (fun _ => rfl) (by simp)

theorem sendbin : Statement .sendbin := ofCmd rfl (fun _ => rfl) (by simp)

theorem swslide (on : Bool) (glen : BitVec 4) : Statement (.swslide on glen) :=
  ofCmd rfl (fun _ => rfl) (by simp)

theorem swfamdev (on : Bool) (chr dev : BitVec 8) : Statement (.swfamdev on chr dev) :=
  ofCmd rfl (fun _ => rfl) (by simp)

theorem swfamgrp (on : Bool) (chr : BitVec 8) (grp dev : BitVec 4) : Statement (.swfamgrp on chr grp dev) :=
  ofCmd rfl (fun _ => rfl) (by simp)

theorem decode : Statement .decode := ofCmd rfl (fun _ => rfl) (by simp)

theorem clrpin : Statement .clrpin := ofCmd rfl (fun _ => rfl) (by simp)

theorem resetrx : Statement .resetrx := ofCmd rfl (fun _ => rfl) (by simp)

theorem clrarg : Statement .clrarg := ofCmd rfl (fun _ => rfl) (by simp)

theorem wrPulseIn (w : Word) : Statement (.wrPulseIn w) := ofWrite rfl (fun _ => rfl) (by simp)

theorem wrArgChar (w : Word) : Statement (.wrArgChar w) := ofWrite rfl (fun _ => rfl) (by simp)

theorem busRead (r : Reg) : Statement (.busRead r) := by
  intro base
  refine ⟨rfl, ⟨r.index, Sys2Proof.index_lt r, rfl⟩, ⟨fun _ => ⟨r, rfl⟩, fun _ => ⟨_, _, rfl⟩⟩, ?_⟩
  intro v hv
  cases hv

theorem busWrite (r : Reg) (w : Word) : Statement (.busWrite r w) := ofWrite rfl (fun _ => rfl) (by simp)

end Sys2Proof.Laws.EncodedShape
end

