-- ==== Sys2Proof/Laws/Run.lean ====
section
/-! SUPPORT. Runs of several steps. -/

namespace Sys2Proof.Machine

theorem runSteps_zero (s : State) : runSteps 0 s = .next s := rfl

theorem runSteps_succ (k : Nat) {s t : State} (h : step s = .next t) : runSteps (k + 1) s = runSteps k t := by
  simp [runSteps, h]

/-- A run of k + 1 steps that goes on takes a step that goes on first. -/
theorem runSteps_next {k : Nat} {s u : State} (h : runSteps (k + 1) s = .next u) :
    ∃ t, step s = .next t ∧ runSteps k t = .next u := by
  simp only [runSteps] at h
  split at h
  · next t ht => exact ⟨t, ht, h⟩
  · cases h
  · cases h

/-- The host's run of a machine, one step of it. -/
theorem host_run_succ (M : Host.Core) (k : Nat) (s : M.State) :
    M.run (k + 1) s =
      match M.step s with
      | .next t => M.run k t
      | .fault e => .fault e
      | .refused e => .refused e := by
  cases h : M.step s <;> simp [Host.Core.run, h]

/-- `runSteps` is the host's run of this machine. -/
theorem runSteps_eq_host_run : ∀ (k : Nat) (s : State), Host.Core.run Sys2Proof.core k s = runSteps k s
  | 0, _ => rfl
  | k + 1, s => by
    refine (host_run_succ Sys2Proof.core k s).trans ?_
    have h : Sys2Proof.core.step s = step s := rfl
    simp only [h, runSteps]
    cases step s with
    | next t => exact runSteps_eq_host_run k t
    | fault e => rfl
    | refused e => rfl

/-- A property that every step keeps holds after every run. -/
theorem runSteps_keeps {P : State → Prop} (hP : ∀ s t, P s → step s = .next t → P t) :
    ∀ {k : Nat} {s t : State}, P s → runSteps k s = .next t → P t
  | 0, _, _, hs, h => by cases h; exact hs
  | _ + 1, _, _, hs, h => by
    obtain ⟨u, hu, hk⟩ := runSteps_next h
    exact runSteps_keeps hP (hP _ _ hs hu) hk

end Sys2Proof.Machine
end

