-- ==== Sys2Proof/Tests/Slice0.lean ====
section
/-! SUPPORT. Tests: the checks of WellFormed refuse ill-formed terms, words written out from the tables of spec
30_encoding decode to their instructions, one-step vectors of spec 95_test_vectors (their ids stand in the names or
comments), and a witness for the hypotheses of every statement. -/

open Sys2Proof Sys2Proof.Machine

namespace Sys2Proof.Tests

/-! ## Helpers -/

/-- The state an outcome goes on in. -/
def onward : Result → Option State
  | .next t => some t
  | .fault _ => none
  | .refused _ => none

/-- One field of the state an instruction leaves, after reset with the given changes. -/
def seen {α : Type} (i : Instr) (s : State) (f : State → α) : Option α := (onward (exec i s)).map f

/-- The levels and durations of TXBUF. -/
def train (s : State) : List (Bool × Nat) := s.txbuf.map fun e => (e.level, e.duration.toNat)

/-- The reset state with a string pushed. -/
def withArg (str : List Byte) : State := { State.reset with argstr := str }

/-- The reset state with durations fed. -/
def withPin (ds : List (BitVec 32)) : State := { State.reset with pin := ds }

/-- The reset state with one access on the bus. -/
def posted (a : Access) : State := State.reset.post [a]

/-- Records 1, 6, 11 and 12 of the table of R102. -/
def p1 : Protocol := ⟨350#16, 1#8, 31#8, 1#8, 3#8, 3#8, 1#8, false⟩
def p6 : Protocol := ⟨450#16, 23#8, 1#8, 1#8, 2#8, 2#8, 1#8, true⟩
def p11 : Protocol := ⟨270#16, 36#8, 1#8, 1#8, 2#8, 2#8, 1#8, true⟩
def p12 : Protocol := ⟨320#16, 36#8, 1#8, 1#8, 2#8, 2#8, 1#8, true⟩

/-- '1' five times, '0' three times, "10": the operand of vectors A1 and A2. -/
def slideArg : List Byte :=
  [0x31#8, 0x31#8, 0x31#8, 0x31#8, 0x31#8, 0x30#8, 0x30#8, 0x30#8, 0x31#8, 0x30#8]

/-- B and S of spec 95 section 2.6. -/
def trainB : List (BitVec 32) := [1050#32, 350#32, 350#32, 1050#32, 1050#32, 350#32, 350#32, 1050#32]
def trainS : List (BitVec 32) := [350#32, 10850#32]

/-- T of spec 95 section 2.6, with its element 1 free. -/
def trainT (x : BitVec 32) : List (BitVec 32) :=
  [1000#32, x, 1000#32, 3000#32, 1000#32, 3000#32, 1000#32, 3000#32, 1000#32, 31000#32]

/-- A Receiver State: the result of vector D18. -/
def rx18 : RxResult :=
  ⟨6#8, 450#32, 4#7, 10#64,
    [900#32, 450#32, 450#32, 900#32, 900#32, 450#32, 450#32, 900#32, 10350#32, 450#32]⟩

/-- A state in the middle of its work: protocol 6 active, a train sent, a code received, one access waiting. -/
def busy (a : Access) : State :=
  { State.reset with
    actProto := 6#8
    actPlen := 450#16
    txbuf := [⟨false, 900#24⟩, ⟨true, 450#24⟩, ⟨false, 10350#24⟩, ⟨true, 450#24⟩]
    rx := some rx18
    inbox := [.access a] }

/-! ## WellFormed refuses what is ill-formed -/

theorem test_wf_refuses_write_cmd : Instr.wellFormed (.busWrite .cmd 0#32) = false := by decide
theorem test_wf_refuses_write_arg_char : Instr.wellFormed (.busWrite .argChar 0#32) = false := by decide
theorem test_wf_refuses_write_pulse_in : Instr.wellFormed (.busWrite .pulseIn 0#32) = false := by decide
theorem test_wf_takes_other_writes : Instr.wellFormed (.busWrite .status 0#32) = true := by decide

theorem test_record_wf : p1.wf = true := by decide
theorem test_record_refuses_pulse_length_zero : { p1 with pulseLength := 0#16 }.wf = false := by decide
theorem test_record_refuses_sync_high_zero : { p1 with syncHigh := 0#8 }.wf = false := by decide
theorem test_record_refuses_sync_low_zero : { p1 with syncLow := 0#8 }.wf = false := by decide
theorem test_record_refuses_zero_high_zero : { p1 with zeroHigh := 0#8 }.wf = false := by decide
theorem test_record_refuses_zero_low_zero : { p1 with zeroLow := 0#8 }.wf = false := by decide
theorem test_record_refuses_one_high_zero : { p1 with oneHigh := 0#8 }.wf = false := by decide
theorem test_record_refuses_one_low_zero : { p1 with oneLow := 0#8 }.wf = false := by decide

theorem test_build_wf : defaultConfig.wf = true := by decide
theorem test_build_refuses_base : { defaultConfig with base := 64 }.wf = false := by decide
theorem test_build_refuses_empty_table : { defaultConfig with protoTable := [] }.wf = false := by decide
set_option maxRecDepth 20000 in
theorem test_build_refuses_long_table :
    { defaultConfig with protoTable := List.replicate 256 p1 }.wf = false := by decide
theorem test_build_refuses_min_bits_zero : { defaultConfig with minBits := 0 }.wf = false := by decide
theorem test_build_refuses_min_bits_65 : { defaultConfig with minBits := 65 }.wf = false := by decide
theorem test_build_refuses_max_arg_63 : { defaultConfig with maxArg := 63 }.wf = false := by decide
theorem test_build_refuses_max_arg_65536 : { defaultConfig with maxArg := 65536 }.wf = false := by decide
theorem test_build_refuses_max_pulses_129 : { defaultConfig with maxPulses := 129 }.wf = false := by decide
theorem test_build_refuses_max_pulses_65536 : { defaultConfig with maxPulses := 65536 }.wf = false := by decide
theorem test_build_refuses_bad_record :
    { defaultConfig with protoTable := [p1, { p6 with oneLow := 0#8 }] }.wf = false := by decide
theorem test_build_refuses_other_protocol_1 : { defaultConfig with protoTable := [p6] }.wf = false := by decide

/-- R101: a one pair of 1:3, like the zero pair, does not decode the fixture; a one pair of 2:1 does. -/
theorem test_build_refuses_wrong_one_pair :
    { defaultConfig with protoTable := [{ p1 with oneHigh := 1#8, oneLow := 3#8 }] }.wf = false := by decide
theorem test_build_takes_other_one_pair :
    { defaultConfig with protoTable := [{ p1 with oneHigh := 2#8, oneLow := 1#8 }] }.wf = true := by decide
/-- R10, R101: MIN_BITS at both ends. -/
theorem test_build_takes_min_bits_1 : { defaultConfig with minBits := 1 }.wf = true := by decide
theorem test_build_takes_min_bits_64 : { defaultConfig with minBits := 64 }.wf = true := by decide

/-! ## Words written out from R88 to R90, and accesses from R69 and R71 -/

theorem test_decode_nop : decodeCmd 0b00000000000000000000000000000000#32 = some .nop := by decide
/-- E1 -/
theorem test_decode_setproto : decodeCmd 0b00000000000000000000000100000001#32 = some (.setproto 1#8 0#16) := by
  decide
/-- E2 -/
theorem test_decode_setproto_override : decodeCmd 0x02BC0201#32 = some (.setproto 2#8 700#16) := by decide
theorem test_decode_lookup : decodeCmd 0b00000000000000000000110000000010#32 = some (.lookup 12#8) := by decide
theorem test_decode_sendts : decodeCmd 0b00000000000000000000000000010000#32 = some .sendts := by decide
/-- E3 -/
theorem test_decode_sendval : decodeCmd 0b00000000000000000001100000010001#32 = some (.sendval 24#7) := by decide
theorem test_decode_sendval_all_ones : decodeCmd 0x00007F11#32 = some (.sendval 127#7) := by decide
theorem test_decode_sendbin : decodeCmd 0b00000000000000000000000000010010#32 = some .sendbin := by decide
/-- E4 -/
theorem test_decode_swslide : decodeCmd 0b00000000000001010000000100100000#32 = some (.swslide true 5#4) := by
  decide
/-- E5 -/
theorem test_decode_swslide_off : decodeCmd 0x00050020#32 = some (.swslide false 5#4) := by decide
/-- E8 -/
theorem test_decode_swfamdev :
    decodeCmd 0b00000111011000110000000100100001#32 = some (.swfamdev true 0x63#8 7#8) := by decide
/-- E7 -/
theorem test_decode_swfamgrp :
    decodeCmd 0b00110010011000110000000100100010#32 = some (.swfamgrp true 0x63#8 2#4 3#4) := by decide
theorem test_decode_decode : decodeCmd 0b00000000000000000000000000110000#32 = some .decode := by decide
theorem test_decode_clrpin : decodeCmd 0b00000000000000000000000000110001#32 = some .clrpin := by decide
theorem test_decode_resetrx : decodeCmd 0b00000000000000000000000000110010#32 = some .resetrx := by decide
theorem test_decode_clrarg : decodeCmd 0b00000000000000000000000001000000#32 = some .clrarg := by decide
theorem test_decode_pulse_in :
    decode 0x80 (.write 0x98 [0x5E#8, 1#8, 0#8, 0#8]) = .instr (.wrPulseIn 350#32) := by decide
theorem test_decode_arg_char :
    decode 0x80 (.write 0x90 [0x46#8, 0#8, 0#8, 0#8]) = .instr (.wrArgChar 0x46#32) := by decide
theorem test_decode_read_last : decode 0x80 (.read 0xFC 4) = .instr (.busRead (.reserved 6)) := by decide
theorem test_decode_read_first : decode 0x80 (.read 0x80 4) = .instr (.busRead .cmd) := by decide
/-- B7: byte lanes 0 to 3 are bits 7:0 to 31:24. -/
theorem test_decode_write_tx_idx :
    decode 0x80 (.write 0xBC [3#8, 0#8, 0xCD#8, 0xAB#8]) = .instr (.busWrite .txIdx 0xABCD0003#32) := by decide
theorem test_decode_cmd_write :
    decode 0x80 (.write 0x80 [0x01#8, 0x02#8, 0xBC#8, 0x02#8]) = .instr (.setproto 2#8 700#16) := by decide

/-- E9 to E15. -/
theorem test_illegal_words :
    [0x00000003#32, 0x00000110#32, 0x00008011#32, 0x00010102#32, 0x00150120#32, 0x017A0321#32, 0x000000FF#32].all
      (fun w => (decodeCmd w).isNone) = true := by decide
/-- B8 -/
theorem test_decode_refuses_16_bits : decode 0x80 (.read 0x84 2) = .reject .badWidth := by decide
theorem test_decode_refuses_64_bits :
    decode 0x80 (.write 0x88 (List.replicate 8 0#8)) = .reject .badWidth := by decide
theorem test_decode_refuses_misaligned : decode 0x80 (.read 0x86 4) = .reject .misaligned := by decide
theorem test_decode_refuses_below : decode 0x80 (.read 0x7C 4) = .reject .outsideWindow := by decide
theorem test_decode_refuses_above : decode 0x80 (.read 0x100 4) = .reject .outsideWindow := by decide
/-- Log 22: 8 bytes across the lower edge of the window, and across the upper one. -/
theorem test_decode_refuses_crossing :
    decode 0x80 (.read 0x7C 8) = .reject .outsideWindow ∧ decode 0x80 (.read 0xFC 8) = .reject .badWidth := by decide

/-- The rows of the opcode table, by their match words. -/
theorem test_table_words :
    decodeTableWord 32 0x00000000 = some .nop ∧ decodeTableWord 32 0x00000021 = some (.swfamdev false 0#8 0#8) ∧
    decodeTableWord 8 0x18 = some (.wrPulseIn 0#32) ∧ decodeTableWord 8 0x10 = some (.wrArgChar 0#32) ∧
    decodeTableWord 8 0x04 = some (.busRead .status) := by decide
theorem test_fetch_word :
    (onward (step (State.reset.withFetchWord 32 0x00000601))).map (·.actProto) = some 6#8 := by decide

/-! ## One-step vectors of spec 95 -/

/-- R5: NOP after a failing command. -/
theorem test_nop : exec .nop { State.reset with err := .emptyCode } = .next State.reset := by rfl

/-- T3, T5, T4 -/
theorem test_setproto :
    seen (.setproto 6#8 0#16) State.reset (fun t => (t.actProto, t.actPlen)) = some (6#8, 450#16) ∧
    seen (.setproto 2#8 0#16) { State.reset with actProto := 2#8, actPlen := 700#16 } (·.actPlen) = some 650#16 := by
  decide
theorem test_setproto_keeps_override :
    seen (.setproto 0#8 0#16) { State.reset with actProto := 2#8, actPlen := 700#16 }
      (fun t => (t.err, t.actProto, t.actPlen)) = some (.unknownProtocol, 2#8, 700#16) := by decide

/-- The rows of section 2.3 for ids 6, 8 and 10; T2. -/
theorem test_lookup :
    seen (.lookup 6#8) State.reset (fun t => [t.lkTiming, t.lkSync, t.lkBits]) =
      some [0x060101C2#32, 0x00000117#32, 0x01020201#32] ∧
    seen (.lookup 8#8) State.reset (fun t => [t.lkTiming, t.lkSync, t.lkBits]) =
      some [0x080000C8#32, 0x00008203#32, 0x10031007#32] ∧
    seen (.lookup 10#8) State.reset (fun t => [t.lkTiming, t.lkSync, t.lkBits]) =
      some [0x0A01016D#32, 0x00000112#32, 0x03010103#32] := by decide
theorem test_lookup_13 : exec (.lookup 13#8) State.reset = .next { State.reset with err := .unknownProtocol } := by
  rfl

/-- S3 -/
theorem test_sendts :
    seen .sendts (withArg [0x46#8]) train =
      some [(true, 350), (false, 1050), (true, 1050), (false, 350), (true, 350), (false, 10850)] := by decide
/-- S13, and ARGSTR is consumed. -/
theorem test_sendts_lower_f :
    seen .sendts { withArg [0x30#8, 0x66#8] with txbuf := [⟨true, 1#24⟩] } (fun t => (t.err, t.txbuf, t.argstr)) =
      some (.invalidAddress, [], []) := by decide

/-- S5: the TX_DATA words of an inverted protocol. -/
theorem test_sendval :
    seen (.sendval 4#7) { State.reset with actProto := 6#8, actPlen := 450#16, valLo := 10#32 }
      (fun t => t.txbuf.map txWord) =
      some [0x00000384#32, 0x800001C2#32, 0x000001C2#32, 0x80000384#32, 0x00000384#32, 0x800001C2#32, 0x000001C2#32,
        0x80000384#32, 0x0000286E#32, 0x800001C2#32] := by decide
/-- S10, S11 -/
theorem test_sendval_too_large :
    seen (.sendval 4#7) { State.reset with valLo := 16#32 } (·.err) = some .invalidAddress ∧
    seen (.sendval 24#7) { State.reset with valLo := 5#32, valHi := 1#32 } (·.err) = some .invalidAddress := by
  decide

/-- S20 -/
theorem test_sendbin :
    seen .sendbin (withArg [0x30#8, 0x30#8, 0x30#8, 0x31#8]) train =
      some [(true, 350), (false, 1050), (true, 350), (false, 1050), (true, 350), (false, 1050), (true, 1050),
        (false, 350), (true, 350), (false, 10850)] := by decide
/-- S19 -/
theorem test_sendbin_refuses_f :
    seen .sendbin (withArg [0x30#8, 0x31#8, 0x46#8, 0x31#8]) (·.err) = some .invalidAddress := by decide

/-- A1 and A2: 5393 and 5396 in 24 bits. -/
theorem test_swslide :
    seen (.swslide true 5#4) (withArg slideArg) train =
      seen (.sendval 24#7) { State.reset with valLo := 5393#32 } train ∧
    seen (.swslide false 5#4) (withArg slideArg) train =
      seen (.sendval 24#7) { State.reset with valLo := 5396#32 } train := by decide
/-- A3 -/
theorem test_swslide_wrong_length :
    seen (.swslide true 4#4) (withArg slideArg) (fun t => (t.err, t.argstr)) = some (.invalidAddress, []) := by
  decide

/-- A11 and A10: 1053717 and 5592340. -/
theorem test_swfamdev :
    seen (.swfamdev true 0x63#8 7#8) State.reset train =
      seen (.sendval 24#7) { State.reset with valLo := 1053717#32 } train ∧
    seen (.swfamdev false 0x70#8 16#8) State.reset train =
      seen (.sendval 24#7) { State.reset with valLo := 5592340#32 } train := by decide
/-- W6, A14, A15, A16 -/
theorem test_swfamdev_refuses :
    [(0x7A#8, 1#8), (0x41#8, 1#8), (0x61#8, 0#8), (0x61#8, 17#8)].all
      (fun (c, d) => seen (.swfamdev true c d) State.reset (·.err) == some .invalidAddress) = true := by decide

/-- A12 and A13: 1053717 and 21. -/
theorem test_swfamgrp :
    seen (.swfamgrp true 0x63#8 2#4 3#4) State.reset train =
      seen (.sendval 24#7) { State.reset with valLo := 1053717#32 } train ∧
    seen (.swfamgrp true 0x61#8 1#4 1#4) State.reset train =
      seen (.sendval 24#7) { State.reset with valLo := 21#32 } train := by decide
/-- A17, A18 -/
theorem test_swfamgrp_refuses :
    [(5#4, 1#4), (1#4, 0#4), (0#4, 1#4), (1#4, 5#4)].all
      (fun (g, d) => seen (.swfamgrp true 0x61#8 g d) State.reset (·.err) == some .invalidAddress) = true := by
  decide

/-- D4 (inclusive boundary), D26 (following frame), D20 (protocol 3 fits first). -/
theorem test_decode_publishes :
    [seen .decode (withPin (trainT 3600#32)) (·.rx),
     seen .decode (withPin ([5#32, 7#32] ++ trainS ++ trainB ++ trainS)) (·.rx),
     seen .decode (withPin [1000#32, 500#32, 1000#32, 500#32, 1000#32, 500#32, 1000#32, 500#32, 3000#32, 7000#32])
       (·.rx)].map (fun x => (x.bind id).map fun y => (y.proto.toNat, y.delay.toNat, y.bitlen.toNat, y.value.toNat)) =
      [some (1, 1000, 4, 0), some (1, 350, 4, 10), some (3, 100, 4, 15)] := by decide
/-- D5, and RX is untouched (R2). -/
theorem test_decode_keeps_rx :
    seen .decode { withPin (trainT 3630#32) with rx := some rx18 } (fun t => (t.err, t.rx, t.pin)) =
      some (.noProtocolMatched, some rx18, []) := by decide

theorem test_clrpin :
    exec .clrpin { State.reset with pin := [350#32, 350#32, 350#32], povf := true } = .next State.reset := by rfl

/-- R1 -/
theorem test_resetrx : exec .resetrx { State.reset with rx := some rx18 } = .next State.reset := by rfl

theorem test_clrarg : exec .clrarg { withArg [0x30#8, 0x46#8, 0x31#8] with aovf := true } = .next State.reset := by rfl

theorem test_pulse_in :
    exec (.wrPulseIn 350#32) (withPin [7#32]) = .next (withPin [7#32, 350#32]) := by rfl
set_option maxRecDepth 20000 in
/-- D33: the 257th duration. -/
theorem test_pulse_in_overflow :
    seen (.wrPulseIn 350#32) (withPin (List.replicate 256 0#32)) (fun t => (t.povf, t.pin.length)) =
      some (true, 256) := by decide

/-- Only the low byte is pushed. -/
theorem test_arg_char :
    exec (.wrArgChar 0xABCDEF31#32) (withArg [0x30#8]) = .next (withArg [0x30#8, 0x31#8]) := by rfl
/-- S16: the 65th character. -/
theorem test_arg_char_overflow :
    seen (.wrArgChar 0x30#32) (withArg (List.replicate 64 0x30#8)) (fun t => (t.aovf, t.argstr.length)) =
      some (true, 64) := by decide

/-- R7, B2: TX_DATA at and past the last entry, ACT_PLEN and PROTO_COUNT after reset. -/
theorem test_bus_read :
    seen (.busRead .txData) { State.reset with txbuf := [⟨true, 350#24⟩, ⟨false, 10850#24⟩], txIdx := 1#16 }
      State.resp = some (.data 0x00002A62#32) ∧
    seen (.busRead .txData) { State.reset with txbuf := [⟨true, 350#24⟩, ⟨false, 10850#24⟩], txIdx := 2#16 }
      State.resp = some (.data 0#32) ∧
    seen (.busRead .actPlen) State.reset State.resp = some (.data 350#32) ∧
    seen (.busRead .protoCount) State.reset State.resp = some (.data 12#32) := by decide
/-- P3's STATUS word, and B9. -/
theorem test_bus_read_status_and_rx :
    seen (.busRead .status) { State.reset with rx := some rx18, err := .noProtocolMatched } State.resp =
      some (.data 0x00000014#32) ∧
    exec (.busRead .rxProto) State.reset = .fault (.rxInvalidRead .rxProto) := ⟨by decide, rfl⟩

/-- B6, B7, B5 -/
theorem test_bus_write :
    seen (.busWrite .valHi 0x9#32) State.reset State.val = some 0x900000000#64 ∧
    seen (.busWrite .txIdx 0xABCD0003#32) State.reset (·.txIdx) = some 3#16 ∧
    exec (.busWrite .status 0xFFFFFFFF#32) State.reset = .next State.reset := ⟨by decide, by decide, rfl⟩

/-! ## Witnesses: states and operands that meet the hypotheses of each statement -/

/-- ResetSetsEveryStateElement, InvariantsHoldAfterReset: the default build. -/
theorem test_witness_build : ∃ r rs, defaultConfig.protoTable = r :: rs ∧ defaultConfig.wf = true :=
  ⟨_, _, rfl, test_build_wf⟩

/-- EncodedTrainEntries: the record of the active protocol after reset, and in the middle of work. -/
theorem test_witness_active : ActiveIs State.reset p1 := ⟨by decide, rfl⟩
theorem test_witness_active_6 (a : Access) : ActiveIs (busy a) p6 := ⟨by simp [busy], rfl⟩

/-- HardwareResetFromAnyState: a reset that abandons a CMD write, with an access behind it. -/
theorem test_witness_hardware_reset :
    step { busy (readAccess 0 .status) with
        inbox := [.reset (some (writeAccess 0 .cmd 0x30#32)), .access (readAccess 0 .status)] } =
      .next { State.reset with inbox := [.access (readAccess 0 .status)] } := by rfl

theorem test_witness_rx_ok : RxOk defaultConfig rx18 := by
  constructor <;> decide

/-- EveryStepKeepsInvariants, EveryStepCompletes, ObedientRunsAreSafe: a state in the middle of work. -/
theorem test_witness_inv (a : Access) : StateInv (busy a) where
  cfg_wf := by simp only [busy]; exact test_build_wf
  actProto_pos := by simp [busy]
  actProto_le := by simp only [busy]; decide
  actPlen_pos := by simp [busy]
  argstr_le := by simp only [busy]; decide
  pin_le := by simp only [busy]; decide
  txbuf_le := by simp only [busy]; decide
  rx_ok := by
    intro x hx
    cases hx
    exact test_witness_rx_ok
  tx_ok := by
    refine .inr ⟨by simp [busy], by simp [busy], p6, by simp only [busy]; decide, ?_⟩
    intro i e he
    match i, he with
    | 0, he => cases he; rfl
    | 1, he => cases he; rfl
    | 2, he => cases he; rfl
    | 3, he => cases he; rfl
    | _ + 4, he => cases he

/-- EveryStepKeepsInvariants, ConfigurationNeverChanges: a read of STATUS at offset 0x04, and of the last word of the
window; both are aligned and no RX view. -/
theorem test_witness_steps :
    (∃ t, step (busy (readAccess 0 .status)) = .next t) ∧ (∃ t, step (busy (readAccess 0 (.reserved 6))) = .next t) :=
  ⟨⟨_, rfl⟩, ⟨_, rfl⟩⟩

theorem test_witness_aligned (r : Reg) (h : r.index < 32) : Aligned32 0 (readAccess 0 r) where
  lo := Nat.zero_le _
  hi := by simp only [readAccess, Access.addr, Reg.offset]; omega
  width := rfl
  offset := by simp only [readAccess, Access.addr, Reg.offset]; omega

theorem test_witness_host_obeys : HostObeys (busy (readAccess 0 .rxProto)) := by
  intro a rest h
  cases h
  exact ⟨test_witness_aligned .rxProto (by decide), fun _ _ _ => rfl⟩

theorem test_witness_host_obeys_always : HostObeysAlways (busy (readAccess 0 .status)) := by
  intro a h
  have ha : a = readAccess 0 .status := by simpa [busy] using h
  subst ha
  refine ⟨test_witness_aligned .status (by decide), fun r hr => ?_⟩
  have hi : (Reg.status).index = r.index := by
    have := congrArg Access.addr hr
    simp only [readAccess, Access.addr, Reg.offset, busy, State.reset, State.resetOf, defaultConfig] at this
    omega
  cases r <;> first
    | rfl
    | simp [Reg.index] at hi

/-- A state with both buffers full, both overflow flags set, and one access waiting. -/
def overfull : State :=
  { posted (encode 0 .nop) with
    argstr := List.replicate 64 0x30#8, aovf := true, pin := List.replicate 256 1#32, povf := true }

/-- OverflowFlagMeansFullBuffer -/
theorem test_witness_overflow : OverflowInv overfull ∧ ∃ t, step overfull = .next t :=
  ⟨⟨fun _ => List.length_replicate, fun _ => List.length_replicate⟩, ⟨_, rfl⟩⟩

theorem test_witness_overflow_inv : StateInv overfull where
  cfg_wf := test_build_wf
  actProto_pos := Nat.le_refl 1
  actProto_le := by decide
  actPlen_pos := by decide
  argstr_le := Nat.le_of_eq List.length_replicate
  pin_le := Nat.le_of_eq List.length_replicate
  txbuf_le := Nat.zero_le _
  rx_ok := by
    intro x hx
    cases hx
  tx_ok := .inl rfl

/-- StepRunsTheDecodedInstruction -/
theorem test_witness_step_runs :
    (posted (.write 0 [0x01#8, 0x06#8, 0#8, 0#8])).inbox = .access (.write 0 [0x01#8, 0x06#8, 0#8, 0#8]) :: [] ∧
    decode 0 (.write 0 [0x01#8, 0x06#8, 0#8, 0#8]) = .instr (.setproto 6#8 0#16) := ⟨rfl, by decide⟩

/-- IdleBlockStartsNothing -/
theorem test_witness_idle : State.reset.inbox = [] := rfl

/-- IllegalCommandOnlySetsErr: E10. -/
theorem test_witness_illegal :
    (∀ row ∈ commandWords, 0x00000110#32 &&& row.2 ≠ row.1) ∧
    onward (step (posted (writeAccess 0 .cmd 0x00000110#32))) =
      some { State.reset with resp := .ack, err := .illegalCommand } := ⟨by simp [commandWords], by decide⟩

/-- EncodeInvertsDecode and DecodeInvertsEncode: every field of SWFAMGRP at its largest value. -/
theorem test_witness_decode_encode :
    Instr.wellFormed (.swfamgrp true 0xFF#8 15#4 15#4) = true ∧
    decode 0x80 (.write 0x80 [0x22#8, 0x01#8, 0xFF#8, 0xFF#8]) = .instr (.swfamgrp true 0xFF#8 15#4 15#4) := by
  decide

/-- RefusedAccessIsABusError: the first and the last address of the window, a read and a write (B8). -/
theorem test_witness_refused :
    step (posted (.read 0 2)) = .fault (.busError .badWidth (some 0#32)) ∧
    step (posted (.read 127 4)) = .fault (.busError .misaligned (some 0#32)) ∧
    step (posted (.write 6 [0#8, 0#8, 0#8, 0#8])) = .fault (.busError .misaligned none) := ⟨rfl, rfl, rfl⟩

/-- ModelStopsOfItsOwn: the addresses next to the window, and a protocol id next to the last. -/
theorem test_witness_own_stops :
    step (posted (.read 128 4)) = .fault .outsideWindow ∧
    step ((State.resetOf { defaultConfig with base := 128 }).post [.read 127 4]) = .fault .outsideWindow ∧
    ({ State.reset with actProto := 13#8 } : State).rom.length < 13 ∧
    exec (.busWrite .cmd 0#32) State.reset = .refused .illFormed := ⟨rfl, rfl, by decide, rfl⟩

/-- SetprotoSelectsOrFails: ids 0 and 13 fail, ids 1 and 12 do not. -/
theorem test_witness_setproto :
    0x02BC0201#32 &&& 0x000000FF#32 = 0x00000001#32 ∧ State.reset.rom.length = 12 ∧
    exec (.setproto 0#8 7#16) State.reset = .next { State.reset with err := .unknownProtocol } ∧
    exec (.setproto 13#8 0#16) State.reset = .next { State.reset with err := .unknownProtocol } ∧
    exec (.setproto 1#8 700#16) State.reset = .next { State.reset with actPlen := 700#16 } ∧
    exec (.setproto 12#8 0#16) State.reset = .next { State.reset with actProto := 12#8, actPlen := 320#16 } :=
  ⟨by decide, by decide, rfl, rfl, rfl, rfl⟩

/-- LookupCopiesRecordOrFails, LookupIsIdempotentAcrossRuns: ids 0, 1, 12 and 13, and a run between two commands. -/
theorem test_witness_lookup :
    0x00000C02#32 &&& 0xFFFF00FF#32 = 0x00000002#32 ∧
    exec (.lookup 0#8) State.reset = .next { State.reset with err := .unknownProtocol } ∧
    exec (.lookup 1#8) State.reset =
      .next { State.reset with lkTiming := 0x0100015E#32, lkSync := 0x00001F01#32, lkBits := 0x01030301#32 } ∧
    exec (.lookup 12#8) State.reset =
      .next { State.reset with lkTiming := 0x0C010140#32, lkSync := 0x00000124#32, lkBits := 0x01020201#32 } ∧
    (∃ t, runSteps 2
      { State.reset with inbox := [.access (encode 0 (.lookup 3#8)), .reset none] } = .next t) :=
  ⟨by decide, rfl, rfl, rfl, ⟨_, rfl⟩⟩

/-- SendtsEncodesOrFails: the empty string, 33 digits, an overflow, a malformed character, 1 and 32 digits. -/
theorem test_witness_sendts :
    (withArg []).argstr = [] ∧
    (32 < (withArg (List.replicate 33 0x30#8)).argstr.length) ∧
    (({ withArg [0x30#8] with aovf := true } : State).argstr ≠ []) ∧
    (∃ c ∈ (withArg [0x30#8, 0x66#8]).argstr, c ≠ 0x30#8 ∧ c ≠ 0x31#8 ∧ c ≠ 0x46#8) ∧
    (withArg [0x46#8]).argstr = [Digit.floating].map digitChar ∧
    (withArg (List.replicate 32 0x30#8)).argstr = (List.replicate 32 Digit.zero).map digitChar ∧
    (withArg [0x46#8]).aovf = false ∧ ActiveIs (withArg [0x46#8]) p1 :=
  ⟨rfl, by decide, by decide, ⟨0x66#8, by decide⟩, rfl, rfl, rfl, by decide, rfl⟩

set_option maxRecDepth 20000 in
/-- SendvalEncodesOrFails: lengths 0, 65, 1 and 64; a value next to the largest of 4 bits. -/
theorem test_witness_sendval :
    0x00000411#32 &&& 0xFFFF80FF#32 = 0x00000011#32 ∧
    64 < (65#7).toNat ∧
    2 ^ (4#7).toNat ≤ 2 ^ 32 * ({ State.reset with valLo := 16#32 } : State).valHi.toNat + (16#32).toNat ∧
    bitsToNat [true, true, true, true] = 2 ^ 32 * (0#32).toNat + (15#32).toNat ∧
    bitsToNat [true] = 2 ^ 32 * (0#32).toNat + (1#32).toNat ∧
    bitsToNat (List.replicate 64 false) = 0 ∧ (List.replicate 64 false).length = (64#7).toNat ∧
    seen (.sendval 64#7) State.reset (fun t => (t.err, t.txbuf.length)) = some (.ok, 130) ∧
    ActiveIs State.reset p1 :=
  ⟨by decide, by decide, by decide, by decide, by decide, by decide, by decide, by decide, by decide, rfl⟩

/-- SendbinEncodesOrFails: the empty string, 65 characters, an overflow, a malformed character, 1 and 64 characters. -/
theorem test_witness_sendbin :
    (withArg []).argstr = [] ∧
    (64 < (withArg (List.replicate 65 0x30#8)).argstr.length) ∧
    (({ withArg [0x30#8] with aovf := true } : State).argstr ≠ []) ∧
    (∃ c ∈ (withArg [0x30#8, 0x46#8]).argstr, c ≠ 0x30#8 ∧ c ≠ 0x31#8) ∧
    (withArg [0x31#8]).argstr = [true].map bitChar ∧
    (withArg (List.replicate 64 0x30#8)).argstr = (List.replicate 64 false).map bitChar ∧
    (withArg [0x31#8]).aovf = false ∧ ActiveIs (withArg [0x31#8]) p1 :=
  ⟨rfl, by decide, by decide, ⟨0x46#8, by decide⟩, rfl, rfl, rfl, by decide, rfl⟩

/-- ThreeEncodePathsConverge: "1F", value 13 in 4 bits, "1101"; and 32 digits. -/
theorem test_witness_three_paths :
    bitsToNat ([Digit.one, Digit.floating].flatMap digitBits) = 13 ∧
    ([Digit.one, Digit.floating].flatMap digitBits).map bitChar = [0x31#8, 0x31#8, 0x30#8, 0x31#8] ∧
    [Digit.one, Digit.floating].map digitChar = [0x31#8, 0x46#8] ∧
    bitsToNat ((List.replicate 32 Digit.zero).flatMap digitBits) = 0 ∧
    seen .sendts (withArg [0x31#8, 0x46#8]) train = seen (.sendval 4#7) { State.reset with valLo := 13#32 } train ∧
    seen .sendts (withArg [0x31#8, 0x46#8]) train =
      seen .sendbin (withArg [0x31#8, 0x31#8, 0x30#8, 0x31#8]) train := by decide

/-- A state of another build (its sliding digits swapped), with another RX, PIN, TXBUF,
ARGSTR, AOVF and VAL than after reset. -/
def elsewhere : State :=
  { State.reset with
    params := { State.reset.params with adapters := { defaultAdapters with slideZero := .one, slideOne := .zero } }
    rx := some rx18, pin := [1#32], txbuf := [⟨true, 1#24⟩], argstr := [0x46#8], aovf := true, valLo := 9#32 }

/-- EncodeIsPure: for each operand form, two states that agree on that operand alone. -/
theorem test_witness_pure :
    ActiveIs State.reset p1 ∧ ActiveIs elsewhere p1 ∧ elsewhere.actPlen = State.reset.actPlen ∧
    consumesArg .sendts = true ∧ { elsewhere with argstr := [], aovf := false }.argstr = State.reset.argstr ∧
    (consumesArg (.sendval 1#7) = false ∧ adapterCommand (.sendval 1#7) = false ∧
      { elsewhere with valLo := 0#32 }.valLo = State.reset.valLo ∧ elsewhere.valHi = State.reset.valHi) ∧
    (adapterCommand (.swfamdev true 0x61#8 1#8) = true ∧ consumesArg (.swfamdev true 0x61#8 1#8) = false ∧
      { elsewhere with params := State.reset.params }.params.adapters = State.reset.params.adapters) :=
  ⟨⟨by decide, rfl⟩, ⟨by decide, rfl⟩, rfl, rfl, rfl, ⟨rfl, rfl, rfl, rfl⟩, ⟨rfl, rfl, rfl⟩⟩

/-- SwslideEncodesOrFails: a wrong group length, a string of 9, a malformed character, and the operand of A1. -/
theorem test_witness_swslide :
    0x00050120#32 &&& 0xFFF0FEFF#32 = 0x00000020#32 ∧ 4#4 ≠ 5#4 ∧ (withArg (slideArg.take 9)).argstr.length ≠ 10 ∧
    (∃ c ∈ (withArg [0x78#8]).argstr, c ≠ 0x30#8 ∧ c ≠ 0x31#8) ∧
    slideArg = [true, true, true, true, true, false, false, false, true, false].map bitChar ∧
    (withArg slideArg).aovf = false ∧ (withArg slideArg).params.adapters = defaultAdapters ∧
    ActiveIs (withArg slideArg) p1 :=
  ⟨by decide, by decide, by decide, ⟨0x78#8, by decide⟩, rfl, rfl, rfl, by decide, rfl⟩

/-- SwfamdevEncodesOrFails: the letters and numbers on both sides of both ends. -/
theorem test_witness_swfamdev :
    0x07630121#32 &&& 0x0000FEFF#32 = 0x00000021#32 ∧
    [(0x60#8, 1#8), (0x71#8, 1#8), (0x61#8, 0#8), (0x61#8, 17#8)].all
      (fun (c, d) => seen (.swfamdev true c d) State.reset (·.err) == some .invalidAddress) = true ∧
    [(0x61#8, 1#8), (0x70#8, 1#8), (0x61#8, 16#8)].all
      (fun (c, d) => seen (.swfamdev true c d) State.reset (·.err) == some .ok) = true ∧
    State.reset.params.adapters = defaultAdapters := ⟨by decide, by decide, by decide, rfl⟩

/-- SwfamgrpEncodesOrFails and SwfamgrpIsSwfamdevOfUnit: group and device numbers at both ends. -/
theorem test_witness_swfamgrp :
    0x32630122#32 &&& 0x0000FEFF#32 = 0x00000022#32 ∧
    [(0x60#8, 1#4, 1#4), (0x71#8, 1#4, 1#4), (0x61#8, 0#4, 1#4), (0x61#8, 5#4, 1#4), (0x61#8, 1#4, 0#4),
      (0x61#8, 1#4, 5#4)].all
      (fun (c, g, d) => seen (.swfamgrp true c g d) State.reset (·.err) == some .invalidAddress) = true ∧
    [(0x61#8, 1#4, 1#4), (0x70#8, 4#4, 4#4)].all
      (fun (c, g, d) => seen (.swfamgrp true c g d) State.reset (·.err) == some .ok) = true ∧
    (16#8).toNat = 4 * ((4#4).toNat - 1) + (4#4).toNat ∧ (1#8).toNat = 4 * ((1#4).toNat - 1) + (1#4).toNat := by
  decide

/-- AdaptersSendFiftyPulsesOrFail -/
theorem test_witness_adapter :
    adapterCommand (.swfamdev true 0x61#8 1#8) = true ∧
    seen (.swfamdev true 0x61#8 1#8) State.reset (fun t => t.txbuf.length) = some 50 := by decide

set_option maxRecDepth 20000 in
/-- PulseInPushesOrOverflows and ArgCharPushesOrOverflows: one place left, and none. -/
theorem test_witness_push :
    (withPin (List.replicate 255 0#32)).pin.length + 1 = State.reset.params.maxPulses ∧
    State.reset.params.maxPulses ≤ (withPin (List.replicate 256 0#32)).pin.length ∧
    (withArg (List.replicate 63 0x30#8)).argstr.length + 1 = State.reset.params.maxArg ∧
    State.reset.params.maxArg ≤ (withArg (List.replicate 64 0x30#8)).argstr.length := by decide

/-- ToleranceBoundary: D3, D5 and D7 at an expected duration of 3000. -/
theorem test_witness_tolerance :
    within 3570 3000 = true ∧ within 3630 3000 = false ∧ within 2400 3000 = true ∧ within 0 0 = false := by decide

/-- LeadingFrameIsTheRunBeforeSync: D2, and the same pairs with one bit too few. -/
theorem test_witness_leading :
    leadFrame 4 p1 ((trainT 3000#32).map BitVec.toNat) (2 * 4) 1000 = some [false, false, false, false] ∧
    leadFrame 5 p1 ((trainT 3000#32).map BitVec.toNat) (2 * 4) 1000 = none ∧
    2 * 4 ≤ (trainT 3000#32).length := by decide

/-- FollowingFrameIsTheRunAfterSync: D22, D23 and D27's single duration. -/
theorem test_witness_following :
    [trainB, trainB ++ trainS, trainB ++ [400#32]].all
      (fun q => followFrame 4 p1 350 (q.map BitVec.toNat) == some [true, false, true, false]) = true := by
  decide

/-- TryProtocolTakesTheFirstFrame: D26. -/
theorem test_witness_try :
    tryProtocol 4 p1 (([5#32, 7#32] ++ trainS ++ trainB ++ trainS).map BitVec.toNat) =
      some (350, [true, false, true, false]) := by decide

/-- DecodePublishesTheFirstFit: an overflow, D28, the first record, and record 11 of D21's shape. -/
theorem test_witness_decode :
    ({ State.reset with povf := true } : State).povf = true ∧
    (∀ r ∈ State.reset.rom, tryProtocol 4 r ([] : List Nat) = none) ∧
    (defaultProtoTable[0]? = some p1 ∧
      tryProtocol 4 p1 ((trainB ++ trainS).map BitVec.toNat) = some (350, [true, false, true, false])) ∧
    (defaultProtoTable[10]? = some p11 ∧
      (defaultProtoTable.take 10).all (fun r => tryProtocol 4 r (trainDurations p11 270 (natToBits 0xA5 8)) == none)
        = true ∧
      tryProtocol 4 p11 (trainDurations p11 270 (natToBits 0xA5 8)) = some (270, natToBits 0xA5 8)) := by
  decide

/-- LowerIdWinsATie: protocols 11 and 12. -/
theorem test_witness_tie :
    defaultConfig.wf = true ∧ defaultProtoTable[10]? = some p11 ∧ defaultProtoTable[11]? = some p12 ∧
    sameShapes p11 p12 ∧
    seen .decode (withPin ((trainDurations p12 320 (natToBits 0xA5 8)).map (BitVec.ofNat 32)))
      (fun t => t.rx.map RxResult.proto) = some (some 11#8) :=
  ⟨test_build_wf, by decide, by decide, ⟨rfl, rfl, rfl, rfl, rfl, rfl⟩, by decide⟩

/-- DefaultTrainsRoundTrip: the last record at pulse lengths 1 and 65535, with 1 bit. -/
theorem test_witness_round_trip :
    p12 ∈ defaultProtoTable ∧ tryProtocol 1 p12 (trainDurations p12 1 [true]) = some (1, [true]) ∧
    tryProtocol 1 p12 (trainDurations p12 65535 [false]) = some (65535, [false]) := by decide

/-- ProtocolOneLoopsBack: value 10 in 4 bits, with pulse length 1. -/
theorem test_witness_loop_back :
    defaultProtoTable.head? = some p1 ∧ (∃ rs, State.reset.rom = p1 :: rs) ∧
    State.reset.actProto = 1#8 ∧ 1 ≤ (1#16).toNat ∧ State.reset.params.minBits ≤ [true, false, true, false].length ∧
    bitsToNat [true, false, true, false] = 2 ^ 32 * (0#32).toNat + (10#32).toNat ∧ (4#7).toNat = 4 :=
  ⟨rfl, ⟨_, rfl⟩, rfl, by decide, by decide, by decide, by decide⟩

/-- ResetrxInvalidatesRx, BusReadOfEveryRxView: an RX view, RX valid and not. -/
theorem test_witness_rx_view :
    isRxView .rxRawData = true ∧ State.reset.rx = none ∧ (busy (readAccess 0 .status)).rx = some rx18 ∧
    seen (.busRead .rxRawData) { State.reset with rx := some rx18, rxRawIdx := 9#16 } State.resp =
      some (.data 450#32) ∧
    seen (.busRead .rxRawData) { State.reset with rx := some rx18, rxRawIdx := 10#16 } State.resp =
      some (.data 0#32) := by decide

/-- BusReadOfEveryPlainRegister: TX_IDX at the last entry and next to it. -/
theorem test_witness_tx_data :
    ([⟨true, 350#24⟩] : List TxEntry)[(0#16).toNat]? = some ⟨true, 350#24⟩ ∧
    ([⟨true, 350#24⟩] : List TxEntry).length ≤ (1#16).toNat := by decide

/-- ReadsHaveNoSideEffect: a register that is no RX view, and one while RX is valid. -/
theorem test_witness_reads :
    isRxView .txData = false ∧ isRxView .rxDelay = true ∧ (busy (readAccess 0 .rxDelay)).rxValid = true := by decide

/-- BusWriteOfEveryRegister: a word that is a command, one that is none, and ignored offsets. -/
theorem test_witness_bus_write :
    decodeCmd 0x00000040#32 = some .clrarg ∧ decodeCmd 0x00000041#32 = none ∧
    Reg.status ∉ [Reg.cmd, .argChar, .pulseIn, .valLo, .valHi, .txIdx, .rxRawIdx] ∧
    Reg.reserved 6 ∉ [Reg.cmd, .argChar, .pulseIn, .valLo, .valHi, .txIdx, .rxRawIdx] := by decide

/-- ErrIsWrittenByCommandsOnly, FailedCommandLeavesNoPartialResult: a failing command of each class. The failing DECODE
is also the one of SetprotoSelectsOrFails, ResetrxInvalidatesRx and OnlyDecodeAndResetrxWriteRx. -/
theorem test_witness_failures :
    seen .sendts (withArg []) (·.err) = some .emptyCode ∧
    seen (.sendval 0#7) State.reset (·.err) = some .emptyCode ∧
    seen .decode State.reset (·.err) = some .noProtocolMatched ∧
    seen (.setproto 0#8 0#16) State.reset (·.err) = some .unknownProtocol ∧
    busOperation .decode = false ∧ busOperation (.busRead .cmd) = true := by decide

/-- OnlyEncodeClassWritesTxbuf, OnlyDecodeAndResetrxWriteRx -/
theorem test_witness_writers :
    encodeClass .clrarg = false ∧ Instr.clrarg ≠ .decode ∧ Instr.clrarg ≠ .resetrx ∧
    (onward (exec .clrarg State.reset)).isSome = true := by decide

set_option maxRecDepth 20000 in
/-- ArgsAndPulsesLinesFillTheBuffers: as long as the buffers are. -/
theorem test_witness_lines :
    State.reset.inbox = [] ∧ (List.replicate 64 0x30#8).length ≤ State.reset.params.maxArg ∧
    (List.replicate 256 1#32).length ≤ State.reset.params.maxPulses := by decide

/-- InstancesShareNoState: two blocks with their windows apart. -/
theorem test_witness_platform :
    let p : Platform := ⟨[posted (encode 0 (.lookup 3#8)), State.resetOf { defaultConfig with base := 128 }]⟩
    p.instances[0]? = some (posted (encode 0 (.lookup 3#8))) ∧
      ∃ t, step (posted (encode 0 (.lookup 3#8))) = .next t := ⟨rfl, ⟨_, rfl⟩⟩

/-- WellFormedBuildsKeepTheFixture: the default build with the fixture pushed, and with MIN_BITS at its largest. -/
theorem test_witness_fixture :
    (withArg fixtureArg).cfg.wf = true ∧ { defaultConfig with minBits := 24 }.wf = true ∧
    (withArg fixtureArg).params.minBits ≤ 24 ∧ (withArg fixtureArg).actProto = 1#8 ∧
    (withArg fixtureArg).actPlen = 350#16 ∧ (withArg fixtureArg).aovf = false ∧
    (withArg fixtureArg).argstr = fixtureArg := ⟨test_build_wf, by decide, by decide, rfl, rfl, rfl, rfl⟩

end Sys2Proof.Tests
end

section
/-! PROOFS. SETPROTO, LOOKUP and the constant Protocol Table (spec 40_protocol_table). -/

/-! ## The decoder: a word of one row's opcode meets no other row -/

namespace Sys2Proof

/-- Where the rows' opcodes are distinct, a word decodes to what the row that it matches builds (R87, R90). -/
theorem decodeRows_of_mem {w : Word} {row : CmdRow} (h : w &&& row.mask = row.pattern) :
    ∀ {rows : List CmdRow}, (∀ r ∈ rows, r.mask &&& 0xFF#32 = 0xFF#32) →
      rows.Pairwise (fun a b => a.pattern &&& 0xFF#32 ≠ b.pattern &&& 0xFF#32) → row ∈ rows →
      decodeRows w rows = some (row.build w)
  | [], _, _, hmem => by cases hmem
  | first :: rows, hmask, hdistinct, hmem => by
    obtain ⟨hfirst, hrows⟩ := List.pairwise_cons.mp hdistinct
    rw [decodeRows_cons]
    rcases List.mem_cons.mp hmem with rfl | hmem
    · rw [if_pos h]
    · have hopc := opcode_of_match h (hmask row (List.mem_cons_of_mem _ hmem))
      have hno := not_match_of_opcode hopc first.mask first.pattern (hmask first List.mem_cons_self) (hfirst row hmem)
      rw [if_neg hno]
      exact decodeRows_of_mem h (fun r hr => hmask r (List.mem_cons_of_mem _ hr)) hrows hmem

/-- A word that matches the k-th row of R90 is the command of that row. -/
theorem decodeCmd_of_row {w : Word} {row : CmdRow} (k : Nat) (hk : cmdRows[k]? = some row)
    (h : w &&& row.mask = row.pattern) : decodeCmd w = some (row.build w) :=
  decodeRows_of_mem h (by decide) (by decide) (List.mem_of_getElem? hk)

end Sys2Proof

namespace Sys2Proof.Machine

/-! ## The build is constant: no event changes ROM or a parameter (R62) -/

theorem writeReg_cfg (s : State) (r : Reg) (w : Word) : (s.writeReg r w).cfg = s.cfg := by
  obtain ⟨hrom, hparams, -⟩ := writeReg_frame s r w
  simp only [State.cfg, hrom, hparams]

theorem exec_cfg {i : Instr} {s t : State} (h : exec i s = .next t) : t.cfg = s.cfg := by
  cases i with
  | nop => cases h; rfl
  | setproto id plen => obtain rfl | ⟨r, -, rfl⟩ := execSetproto_cases h <;> rfl
  | lookup id => obtain rfl | ⟨r, -, rfl⟩ := execLookup_cases h <;> rfl
  | sendts => obtain ⟨e, -, rfl⟩ | ⟨tr, rfl⟩ := execSendts_cases h <;> rfl
  | sendval len => obtain ⟨e, -, rfl⟩ | ⟨tr, rfl⟩ := execSendval_cases h <;> rfl
  | sendbin => obtain ⟨e, -, rfl⟩ | ⟨tr, rfl⟩ := execSendbin_cases h <;> rfl
  | swslide on glen => obtain ⟨e, -, rfl⟩ | ⟨tr, rfl⟩ := execSwslide_cases h <;> rfl
  | swfamdev on chr dev => obtain ⟨e, -, rfl⟩ | ⟨tr, rfl⟩ := execSwfamdev_cases h <;> rfl
  | swfamgrp on chr grp dev => obtain ⟨e, -, rfl⟩ | ⟨tr, rfl⟩ := execSwfamgrp_cases h <;> rfl
  | decode => obtain ⟨e, -, rfl⟩ | ⟨x, -, -, rfl⟩ := execDecode_cases h <;> rfl
  | clrpin => cases h; rfl
  | resetrx => cases h; rfl
  | clrarg => cases h; rfl
  | wrPulseIn w => cases h; exact writeReg_cfg s .pulseIn w
  | wrArgChar w => cases h; exact writeReg_cfg s .argChar w
  | busRead r => obtain ⟨w, -, rfl⟩ := execBusRead_cases h; rfl
  | busWrite r w => obtain ⟨-, rfl⟩ := execBusWrite_cases h; exact writeReg_cfg s r w

theorem hardReset_cfg (s : State) (rest : List BusEvent) : (hardReset s rest).cfg = s.cfg := rfl

theorem serveReject_cfg {e : Reject} {a : Access} {s t : State} (h : serveReject e a s = .next t) :
    t.cfg = s.cfg := by
  cases e with
  | illegalCommand => cases h; rfl
  | outsideWindow => cases h
  | badWidth => cases h
  | misaligned => cases h

/-- What one step that goes on can be: idle, a reset, an instruction, or an access that carries none. -/
theorem step_cases {s t : State} (h : step s = .next t) :
    (s.inbox = [] ∧ t = s) ∨
      (∃ abandoned rest, s.inbox = .reset abandoned :: rest ∧ t = hardReset s rest) ∨
      (∃ a rest i, s.inbox = .access a :: rest ∧ decode s.params.base a = .instr i ∧
        exec i (s.accept rest) = .next t) ∨
      ∃ a rest e, s.inbox = .access a :: rest ∧ decode s.params.base a = .reject e ∧
        serveReject e a (s.accept rest) = .next t := by
  match hin : s.inbox with
  | [] =>
    simp only [step, fetch, hin, Host.Outcome.next.injEq] at h
    exact .inl ⟨rfl, h.symm⟩
  | .reset abandoned :: rest =>
    simp only [step, fetch, hin, Host.Outcome.next.injEq] at h
    exact .inr (.inl ⟨abandoned, rest, rfl, h.symm⟩)
  | .access a :: rest =>
    cases hd : decode s.params.base a with
    | instr i =>
      simp only [step, fetch, hin, hd] at h
      exact .inr (.inr (.inl ⟨a, rest, i, rfl, hd, h⟩))
    | reject e =>
      simp only [step, fetch, hin, hd] at h
      exact .inr (.inr (.inr ⟨a, rest, e, rfl, hd, h⟩))

theorem step_cfg {s t : State} (h : step s = .next t) : t.cfg = s.cfg := by
  obtain ⟨-, rfl⟩ | ⟨-, rest, -, rfl⟩ | ⟨a, rest, i, -, -, hexec⟩ | ⟨a, rest, e, -, -, hrej⟩ := step_cases h
  · rfl
  · exact hardReset_cfg s rest
  · rw [exec_cfg hexec, State.accept_cfg]
  · rw [serveReject_cfg hrej, State.accept_cfg]

theorem runSteps_cfg {k : Nat} {s t : State} (h : runSteps k s = .next t) : t.cfg = s.cfg :=
  runSteps_keeps (P := fun u => u.cfg = s.cfg) (fun _ _ hu hstep => (step_cfg hstep).trans hu) rfl h

/-! ## SETPROTO and LOOKUP -/

/-- A valid id names a record. -/
theorem exists_romAt {table : List Protocol} {id : BitVec 8} (h1 : 1 ≤ id.toNat) (h2 : id.toNat ≤ table.length) :
    ∃ r, romAt table id = some r :=
  Option.ne_none_iff_exists'.mp fun hnone => by
    have := romAt_eq_none.mp hnone
    omega

theorem execSetproto_of_none {s : State} {id : BitVec 8} (plen : BitVec 16) (h : romAt s.rom id = none) :
    execSetproto id plen s = .next (s.setErr .unknownProtocol) := by
  simp only [execSetproto, h, fail_eq]

theorem execSetproto_of_some {s : State} {id : BitVec 8} {r : Protocol} (plen : BitVec 16)
    (h : romAt s.rom id = some r) :
    execSetproto id plen s =
      .next ((s.setActive id (if plen = 0#16 then r.pulseLength else plen)).setErr .ok) := by
  simp only [execSetproto, h, succeed_eq]

theorem execLookup_of_none {s : State} {id : BitVec 8} (h : romAt s.rom id = none) :
    execLookup id s = .next (s.setErr .unknownProtocol) := by
  simp only [execLookup, h, fail_eq]

theorem execLookup_of_some {s : State} {id : BitVec 8} {r : Protocol} (h : romAt s.rom id = some r) :
    execLookup id s = .next ((s.setLookup id r).setErr .ok) := by
  simp only [execLookup, h, succeed_eq]

/-! ## The LK words as numbers (R44 to R46) -/

theorem toNat_placeBit_or (b : Bool) (lo : Nat) (w : Word) (hb : b.toNat * 2 ^ lo < 2 ^ 32) (hw : w.toNat < 2 ^ lo) :
    (placeBit b lo ||| w).toNat = 2 ^ lo * b.toNat + w.toNat := by
  rw [placeBit, toNat_place_or _ lo w (by simpa using hb) hw, BitVec.toNat_ofBool]

theorem lkTimingWord_eq (id : BitVec 8) (r : Protocol) :
    lkTimingWord id r =
      BitVec.ofNat 32 (2 ^ 24 * id.toNat + 2 ^ 16 * r.invertedSignal.toNat + r.pulseLength.toNat) := by
  have hid := id.isLt
  have hinv := r.invertedSignal.toNat_le
  have hlen := r.pulseLength.isLt
  have h0 : (place r.pulseLength 0).toNat = r.pulseLength.toNat := toNat_place_zero _ (by decide)
  have h16 := toNat_placeBit_or r.invertedSignal 16 (place r.pulseLength 0) (by omega) (by omega)
  have h24 := toNat_place_or id 24 (placeBit r.invertedSignal 16 ||| place r.pulseLength 0) (by omega) (by omega)
  rw [lkTimingWord, BitVec.or_assoc]
  apply BitVec.eq_of_toNat_eq
  rw [BitVec.toNat_ofNat]
  omega

theorem lkSyncWord_eq (r : Protocol) :
    lkSyncWord r = BitVec.ofNat 32 (2 ^ 8 * r.syncLow.toNat + r.syncHigh.toNat) := by
  have hlow := r.syncLow.isLt
  have hhigh := r.syncHigh.isLt
  have h0 : (place r.syncHigh 0).toNat = r.syncHigh.toNat := toNat_place_zero _ (by decide)
  have h8 := toNat_place_or r.syncLow 8 (place r.syncHigh 0) (by omega) (by omega)
  rw [lkSyncWord]
  apply BitVec.eq_of_toNat_eq
  rw [BitVec.toNat_ofNat]
  omega

theorem lkBitsWord_eq (r : Protocol) :
    lkBitsWord r = BitVec.ofNat 32
      (2 ^ 24 * r.oneLow.toNat + 2 ^ 16 * r.oneHigh.toNat + 2 ^ 8 * r.zeroLow.toNat + r.zeroHigh.toNat) := by
  have hol := r.oneLow.isLt
  have hoh := r.oneHigh.isLt
  have hzl := r.zeroLow.isLt
  have hzh := r.zeroHigh.isLt
  have h0 : (place r.zeroHigh 0).toNat = r.zeroHigh.toNat := toNat_place_zero _ (by decide)
  have h8 := toNat_place_or r.zeroLow 8 (place r.zeroHigh 0) (by omega) (by omega)
  have h16 := toNat_place_or r.oneHigh 16 (place r.zeroLow 8 ||| place r.zeroHigh 0) (by omega) (by omega)
  have h24 := toNat_place_or r.oneLow 24 (place r.oneHigh 16 ||| (place r.zeroLow 8 ||| place r.zeroHigh 0))
    (by omega) (by omega)
  rw [lkBitsWord, BitVec.or_assoc, BitVec.or_assoc]
  apply BitVec.eq_of_toNat_eq
  rw [BitVec.toNat_ofNat]
  omega

/-! ## DECODE -/

theorem execDecode_of_povf {s : State} (h : s.povf = true) :
    execDecode s = .next (s.clearPin.setErr .pulseOverflow) := by
  simp [execDecode, h, fail_eq]

theorem execDecode_of_fit {s : State} {x : RxResult} (h : s.povf = false)
    (hx : decodeTrain s.params.minBits s.rom s.pin = some x) :
    execDecode s = .next ((s.clearPin.setRx (some x)).setErr .ok) := by
  simp [execDecode, h, hx, succeed_eq]

theorem execDecode_of_no_fit {s : State} (h : s.povf = false)
    (hx : decodeTrain s.params.minBits s.rom s.pin = none) :
    execDecode s = .next (s.clearPin.setErr .noProtocolMatched) := by
  simp [execDecode, h, hx, fail_eq]

/-- DECODE neither reads nor writes the active protocol and its pulse length. -/
theorem execDecode_setActive {s t : State} (id : BitVec 8) (plen : BitVec 16) (h : execDecode s = .next t) :
    execDecode (s.setActive id plen) = .next (t.setActive id plen) := by
  cases hovf : s.povf with
  | true =>
    rw [execDecode_of_povf hovf] at h
    cases h
    exact execDecode_of_povf (s := s.setActive id plen) hovf
  | false =>
    cases hfit : decodeTrain s.params.minBits s.rom s.pin with
    | some x =>
      rw [execDecode_of_fit hovf hfit] at h
      cases h
      exact execDecode_of_fit (s := s.setActive id plen) hovf hfit
    | none =>
      rw [execDecode_of_no_fit hovf hfit] at h
      cases h
      exact execDecode_of_no_fit (s := s.setActive id plen) hovf hfit

/-! ## The obligations -/

/-- Settles O17: ROM is the same after any run, so the second LOOKUP finds the record of the first. -/
theorem lookupIsIdempotentAcrossRuns : Obligations.LookupIsIdempotentAcrossRuns := by
  intro s id h1 h2
  obtain ⟨r, hr⟩ := exists_romAt h1 h2
  refine ⟨_, execLookup_of_some hr, fun k between s₂ hrun => ?_⟩
  have hrom : s₂.rom = s.rom := congrArg Config.protoTable (runSteps_cfg hrun)
  exact ⟨_, execLookup_of_some (hrom ▸ hr), rfl, rfl, rfl⟩

/-- Settles O15, by the two outcomes of the record lookup. -/
theorem setprotoSelectsOrFails : Obligations.SetprotoSelectsOrFails := by
  refine ⟨fun w hw => decodeCmd_of_row 1 rfl hw, fun s id plen => ⟨fun hbad => ?_, fun h1 h2 => ?_, fun t ht => ?_⟩⟩
  · exact execSetproto_of_none plen (romAt_eq_none.mpr hbad)
  · obtain ⟨r, hr⟩ := exists_romAt h1 h2
    exact ⟨r, (romAt_eq_some.mp hr).2, execSetproto_of_some plen hr⟩
  · exact execDecode_setActive id plen ht

/-- Settles O16, by the two outcomes of the record lookup and the LK words as sums of their fields. -/
theorem lookupCopiesRecordOrFails : Obligations.LookupCopiesRecordOrFails := by
  refine ⟨fun w hw => decodeCmd_of_row 2 rfl hw, fun s id => ⟨fun hbad => ?_, fun h1 h2 => ?_⟩⟩
  · exact execLookup_of_none (romAt_eq_none.mpr hbad)
  · obtain ⟨r, hr⟩ := exists_romAt h1 h2
    refine ⟨r, (romAt_eq_some.mp hr).2, ?_⟩
    rw [← lkTimingWord_eq, ← lkSyncWord_eq, ← lkBitsWord_eq]
    exact execLookup_of_some hr

end Sys2Proof.Machine

end

section
/-! PROOFS. The pulse-train encoder, SENDTS, SENDVAL and SENDBIN (spec 41_encoder), and what an encode depends on. -/

namespace Sys2Proof.Machine

/-! ## Operands: characters, VAL and bit patterns -/

@[simp] theorem digitOf_digitChar (d : Digit) : digitOf (digitChar d) = some d := by cases d <;> rfl

@[simp] theorem bitOf_bitChar (b : Bool) : bitOf (bitChar b) = some b := by cases b <;> rfl

/-- Reading gives back what was written, character by character. -/
theorem readAll_map {α : Type} {read : Byte → Option α} {write : α → Byte} (h : ∀ x, read (write x) = some x)
    (xs : List α) : readAll read (xs.map write) = some xs := by
  simp [readAll_eq_some, Function.comp_def, h]

@[simp] theorem dibits_length (ds : List Digit) : (dibits ds).length = 2 * ds.length := by
  simp [dibits, List.length_flatMap, Nat.mul_comm]

/-- VAL is its two words side by side (R35, R36). -/
theorem toNat_val (s : State) : s.val.toNat = 2 ^ 32 * s.valHi.toNat + s.valLo.toNat := by
  have hhi := s.valHi.isLt
  have hlo := s.valLo.isLt
  have hfit : s.valHi.toNat * 2 ^ 32 < 2 ^ 64 := by omega
  rw [State.val, BitVec.toNat_or, BitVec.toNat_shiftLeft, BitVec.toNat_setWidth_of_le (by decide),
    BitVec.toNat_setWidth_of_le (by decide), Nat.shiftLeft_eq, Nat.mod_eq_of_lt hfit, Nat.mul_comm,
    Nat.two_pow_add_eq_or_of_lt hlo]

/-- The n low bits of a number do not see what stands above them. -/
theorem natToBits_two_pow_mul_add (a : Nat) {v m n : Nat} (hv : v < 2 ^ m) (h : n ≤ m) :
    natToBits (2 ^ m * a + v) n = natToBits v n := by
  induction n with
  | zero => rfl
  | succ n ih =>
    rw [natToBits, natToBits, Nat.testBit_two_pow_mul_add _ hv, if_pos (Nat.lt_of_succ_le h),
      ih (Nat.le_of_succ_le h)]

/-- A bit pattern is the expansion of its value at its length (R19). -/
theorem natToBits_bitsToNat (bits : List Bool) : natToBits (bitsToNat bits) bits.length = bits := by
  induction bits with
  | nil => rfl
  | cons b bs ih =>
    have htop : (2 ^ bs.length * b.toNat + bitsToNat bs).testBit bs.length = b := by
      rw [Nat.testBit_two_pow_mul_add _ (bitsToNat_lt bs)]
      cases b <;> simp
    rw [bitsToNat, List.length_cons, Nat.mul_comm, natToBits, htop,
      natToBits_two_pow_mul_add _ (bitsToNat_lt bs) le_rfl, ih]

/-! ## The pulse train, entry by entry (R109 to R111) -/

theorem activeRecord_of_activeIs {s : State} {r : Protocol} (h : ActiveIs s r) : s.activeRecord = some r :=
  romAt_eq_some.mpr h

@[simp] theorem bitPulses_length (r : Protocol) (L : Nat) (b : Bool) : (bitPulses r L b).length = 2 := by
  cases b <;> rfl

@[simp] theorem length_flatMap_bitPulses (r : Protocol) (L : Nat) (bits : List Bool) :
    (bits.flatMap (bitPulses r L)).length = 2 * bits.length := by
  simp [List.length_flatMap, Nat.mul_comm]

@[simp] theorem pulseTrain_length (r : Protocol) (L : Nat) (bits : List Bool) :
    (pulseTrain r L bits).length = 2 * bits.length + 2 := by
  rw [pulseTrain, List.length_map, List.length_zipIdx, trainDurations, List.length_append, length_flatMap_bitPulses]
  rfl

theorem pulseTrain_ne_nil (r : Protocol) (L : Nat) (bits : List Bool) : pulseTrain r L bits ≠ [] :=
  List.ne_nil_of_length_pos (by simp)

/-- Entry k of a train: the alternating level, and duration k. -/
theorem getElem?_pulseTrain (r : Protocol) (L : Nat) (bits : List Bool) (k : Nat) :
    (pulseTrain r L bits)[k]? =
      (trainDurations r L bits)[k]?.map fun d => ⟨Bool.xor (k % 2 == 0) r.invertedSignal, BitVec.ofNat 24 d⟩ := by
  simp [pulseTrain, List.getElem?_zipIdx, Function.comp_def]

theorem level_of_pulseTrain {r : Protocol} {L : Nat} {bits : List Bool} {k : Nat} {e : TxEntry}
    (h : (pulseTrain r L bits)[k]? = some e) : e.level = Bool.xor (k % 2 == 0) r.invertedSignal := by
  rw [getElem?_pulseTrain, Option.map_eq_some_iff] at h
  obtain ⟨d, -, rfl⟩ := h
  rfl

/-- Durations 2i and 2i+1 of a run of bits are the pair of bit i. -/
theorem getElem?_flatMap_bitPulses (r : Protocol) (L : Nat) {j : Nat} (hj : j < 2) :
    ∀ (bits : List Bool) (i : Nat),
      (bits.flatMap (bitPulses r L))[2 * i + j]? = bits[i]?.bind fun b => (bitPulses r L b)[j]?
  | [], i => by simp
  | b :: bs, 0 => by
    rw [List.flatMap_cons, List.getElem?_append_left (by simpa using hj)]
    simp
  | b :: bs, i + 1 => by
    have hpast : 2 * (i + 1) + j - (bitPulses r L b).length = 2 * i + j := by rw [bitPulses_length]; omega
    rw [List.flatMap_cons, List.getElem?_append_right (by rw [bitPulses_length]; omega), hpast,
      getElem?_flatMap_bitPulses r L hj bs i, List.getElem?_cons_succ]

theorem getElem?_trainDurations_bit (r : Protocol) (L : Nat) {bits : List Bool} {i j : Nat} {b : Bool} (hj : j < 2)
    (hb : bits[i]? = some b) : (trainDurations r L bits)[2 * i + j]? = (bitPulses r L b)[j]? := by
  have hi : i < bits.length := (List.getElem?_eq_some_iff.mp hb).1
  rw [trainDurations, List.getElem?_append_left (by rw [length_flatMap_bitPulses]; omega),
    getElem?_flatMap_bitPulses r L hj, hb, Option.bind_some]

theorem getElem?_trainDurations_sync (r : Protocol) (L : Nat) (bits : List Bool) (j : Nat) :
    (trainDurations r L bits)[2 * bits.length + j]? = [r.syncHigh.toNat * L, r.syncLow.toNat * L][j]? := by
  rw [trainDurations, List.getElem?_append_right (by rw [length_flatMap_bitPulses]; omega),
    length_flatMap_bitPulses, Nat.add_sub_cancel_left]

/-- A multiple times a pulse length fits the duration field (R16, R110). -/
theorem toNat_ofNat_duration (m : BitVec 8) (L : BitVec 16) :
    (BitVec.ofNat 24 (m.toNat * L.toNat)).toNat = m.toNat * L.toNat := by
  rw [BitVec.toNat_ofNat]
  have hlt : m.toNat * L.toNat < 2 ^ 8 * 2 ^ 16 := Nat.mul_lt_mul'' m.isLt L.isLt
  exact Nat.mod_eq_of_lt hlt

/-- The entry at a place whose duration is a multiple times the pulse length lasts exactly that. -/
theorem duration_of_pulseTrain {r : Protocol} {L : BitVec 16} {bits : List Bool} {k : Nat} {e : TxEntry}
    {m : BitVec 8} (hd : (trainDurations r L.toNat bits)[k]? = some (m.toNat * L.toNat))
    (he : (pulseTrain r L.toNat bits)[k]? = some e) : e.duration.toNat = m.toNat * L.toNat := by
  rw [getElem?_pulseTrain, hd, Option.map_some, Option.some.injEq] at he
  rw [← he]
  exact toNat_ofNat_duration m L

/-! ## SENDTS and SENDBIN, which differ only in their longest string, their characters and their bits -/

/-- The common form of SENDTS and SENDBIN (R116, R118): ARGSTR is read by `read` and sent as the bits `toBits`. -/
def sendArg {α : Type} (cap : Nat) (read : Byte → Option α) (toBits : List α → List Bool) (s : State) : Result :=
  if s.argstr.length = 0 then encFail .emptyCode s.clearArg
  else if s.aovf then encFail .invalidAddress s.clearArg
  else if cap < s.argstr.length then encFail .invalidAddress s.clearArg
  else
    match readAll read s.argstr with
    | none => encFail .invalidAddress s.clearArg
    | some xs => encodeBits (toBits xs) s.clearArg

theorem execSendts_eq_sendArg (s : State) : execSendts s = sendArg maxTsDigits digitOf dibits s := by
  cases h : readAll digitOf s.argstr with
  | none => simp only [execSendts, sendArg, h]
  | some ds => simp only [execSendts, sendArg, h]

theorem execSendbin_eq_sendArg (s : State) : execSendbin s = sendArg valueW bitOf id s := by
  cases h : readAll bitOf s.argstr with
  | none => simp only [execSendbin, sendArg, h]
  | some bits => simp only [execSendbin, sendArg, h, id]

section
variable {α : Type} {cap : Nat} {read : Byte → Option α} {toBits : List α → List Bool} {s : State}

theorem sendArg_of_empty (h : s.argstr = []) : sendArg cap read toBits s = encFail .emptyCode s.clearArg := by
  simp [sendArg, h]

theorem sendArg_of_malformed (hne : s.argstr ≠ [])
    (hbad : s.aovf = true ∨ cap < s.argstr.length ∨ ∃ c ∈ s.argstr, read c = none) :
    sendArg cap read toBits s = encFail .invalidAddress s.clearArg := by
  rcases hbad with hovf | hlong | hchar
  · simp [sendArg, hne, hovf]
  · simp [sendArg, hne, hlong]
  · simp [sendArg, hne, readAll_eq_none.mpr hchar]

theorem sendArg_of_read {xs : List α} {r : Protocol} (hne : s.argstr ≠ []) (hovf : s.aovf = false)
    (hlen : s.argstr.length ≤ cap) (hread : readAll read s.argstr = some xs) (hr : ActiveIs s r) :
    sendArg cap read toBits s =
      .next ((s.clearArg.setTxbuf (pulseTrain r s.actPlen.toNat (toBits xs))).setErr .ok) := by
  have henc : sendArg cap read toBits s = encodeBits (toBits xs) s.clearArg := by
    simp [sendArg, hne, hovf, Nat.not_lt.mpr hlen, hread]
  rw [henc]
  exact encodeBits_eq (s := s.clearArg) (activeRecord_of_activeIs hr)

end

/-- SENDTS of a string of 1 to 32 digits (R116). -/
theorem execSendts_of_digits {s : State} {ds : List Digit} {r : Protocol} (hne : ds ≠ []) (hlen : ds.length ≤ 32)
    (harg : s.argstr = ds.map digitChar) (hovf : s.aovf = false) (hr : ActiveIs s r) :
    execSendts s = .next ((s.clearArg.setTxbuf (pulseTrain r s.actPlen.toNat (dibits ds))).setErr .ok) := by
  rw [execSendts_eq_sendArg]
  exact sendArg_of_read (by simpa [harg] using hne) hovf (by simpa [harg] using hlen)
    (harg ▸ readAll_map digitOf_digitChar ds) hr

/-- SENDBIN of a string of 1 to 64 bits (R118). -/
theorem execSendbin_of_bits {s : State} {bits : List Bool} {r : Protocol} (hne : bits ≠ [])
    (hlen : bits.length ≤ 64) (harg : s.argstr = bits.map bitChar) (hovf : s.aovf = false) (hr : ActiveIs s r) :
    execSendbin s = .next ((s.clearArg.setTxbuf (pulseTrain r s.actPlen.toNat bits)).setErr .ok) := by
  rw [execSendbin_eq_sendArg]
  exact sendArg_of_read (toBits := id) (by simpa [harg] using hne) hovf (by simpa [harg] using hlen)
    (harg ▸ readAll_map bitOf_bitChar bits) hr

/-! ## SENDVAL -/

theorem execSendval_of_zero {s : State} {len : BitVec 7} (h : len.toNat = 0) :
    execSendval len s = encFail .emptyCode s := by
  simp [execSendval, h]

theorem execSendval_of_unfit {s : State} {len : BitVec 7} (hne : len.toNat ≠ 0)
    (hbad : 64 < len.toNat ∨ 2 ^ len.toNat ≤ s.val.toNat) : execSendval len s = encFail .invalidAddress s := by
  rcases hbad with hlong | hbig
  · simp [execSendval, hne, hlong]
  · simp [execSendval, hne, hbig]

/-- SENDVAL of the value of a bit pattern of 1 to 64 bits, at its length, sends that pattern (R117). -/
theorem execSendval_of_bits {s : State} {len : BitVec 7} {bits : List Bool} {r : Protocol} (hne : bits ≠ [])
    (hlen : bits.length = len.toNat) (hmax : bits.length ≤ 64) (hval : bitsToNat bits = s.val.toNat)
    (hr : ActiveIs s r) :
    execSendval len s = .next ((s.setTxbuf (pulseTrain r s.actPlen.toNat bits)).setErr .ok) := by
  have hpos : bits.length ≠ 0 := mt List.length_eq_zero_iff.mp hne
  have hfit : ¬ 2 ^ bits.length ≤ bitsToNat bits := Nat.not_le.mpr (bitsToNat_lt bits)
  have henc : execSendval len s = encodeBits bits s := by
    simp only [execSendval, ← hlen, ← hval, if_neg hpos, if_neg (Nat.not_lt.mpr hmax), if_neg hfit,
      natToBits_bitsToNat]
  rw [henc, encodeBits_eq (activeRecord_of_activeIs hr)]

/-! ## What an encode depends on (R115) -/

/-- Two outcomes that go on, with the same TXBUF and the same ERR. -/
def SameTrain (o p : Result) : Prop :=
  ∃ t u, o = .next t ∧ p = .next u ∧ t.txbuf = u.txbuf ∧ t.err = u.err

theorem sameTrain_encFail (e : ErrCode) (s q : State) : SameTrain (encFail e s) (encFail e q) :=
  ⟨_, _, rfl, rfl, rfl, rfl⟩

/-- EncodeBits sees of a state only ROM[ACT_PROTO] and ACT_PLEN. -/
theorem sameTrain_encodeBits {s q : State} {r : Protocol} (hs : ActiveIs s r) (hq : ActiveIs q r)
    (hplen : q.actPlen = s.actPlen) (bits : List Bool) : SameTrain (encodeBits bits s) (encodeBits bits q) :=
  ⟨_, _, encodeBits_eq (activeRecord_of_activeIs hs), encodeBits_eq (activeRecord_of_activeIs hq),
    by simp [hplen], rfl⟩

section
variable {s q : State} {r : Protocol} (hs : ActiveIs s r) (hq : ActiveIs q r) (hplen : q.actPlen = s.actPlen)
include hs hq hplen

theorem sameTrain_encodeBits_clearArg (bits : List Bool) :
    SameTrain (encodeBits bits s.clearArg) (encodeBits bits q.clearArg) :=
  sameTrain_encodeBits (s := s.clearArg) (q := q.clearArg) hs hq hplen bits

theorem sameTrain_sendArg {α : Type} (cap : Nat) (read : Byte → Option α) (toBits : List α → List Bool)
    (harg : q.argstr = s.argstr) (hovf : q.aovf = s.aovf) :
    SameTrain (sendArg cap read toBits s) (sendArg cap read toBits q) := by
  simp only [sendArg, harg, hovf]
  split_ifs
  · exact sameTrain_encFail _ _ _
  · exact sameTrain_encFail _ _ _
  · exact sameTrain_encFail _ _ _
  · split
    · exact sameTrain_encFail _ _ _
    · exact sameTrain_encodeBits_clearArg hs hq hplen _

theorem sameTrain_execSendts (harg : q.argstr = s.argstr) (hovf : q.aovf = s.aovf) :
    SameTrain (execSendts s) (execSendts q) := by
  simp only [execSendts_eq_sendArg]
  exact sameTrain_sendArg hs hq hplen _ _ _ harg hovf

theorem sameTrain_execSendbin (harg : q.argstr = s.argstr) (hovf : q.aovf = s.aovf) :
    SameTrain (execSendbin s) (execSendbin q) := by
  simp only [execSendbin_eq_sendArg]
  exact sameTrain_sendArg hs hq hplen _ _ _ harg hovf

theorem sameTrain_execSendval (len : BitVec 7) (hval : q.val = s.val) :
    SameTrain (execSendval len s) (execSendval len q) := by
  simp only [execSendval, hval]
  split_ifs
  · exact sameTrain_encFail _ _ _
  · exact sameTrain_encFail _ _ _
  · exact sameTrain_encFail _ _ _
  · exact sameTrain_encodeBits hs hq hplen _

theorem sameTrain_execSwslide (on : Bool) (glen : BitVec 4) (harg : q.argstr = s.argstr) (hovf : q.aovf = s.aovf)
    (hadapters : q.params.adapters = s.params.adapters) :
    SameTrain (execSwslide on glen s) (execSwslide on glen q) := by
  simp only [execSwslide, harg, hovf, hadapters]
  split_ifs
  · exact sameTrain_encFail _ _ _
  · split
    · exact sameTrain_encFail _ _ _
    · exact sameTrain_encodeBits_clearArg hs hq hplen _

theorem sameTrain_execSwfamdev (on : Bool) (chr dev : BitVec 8)
    (hadapters : q.params.adapters = s.params.adapters) :
    SameTrain (execSwfamdev on chr dev s) (execSwfamdev on chr dev q) := by
  simp only [execSwfamdev, hadapters]
  split_ifs
  · exact sameTrain_encFail _ _ _
  · exact sameTrain_encFail _ _ _
  · exact sameTrain_encodeBits hs hq hplen _

theorem sameTrain_execSwfamgrp (on : Bool) (chr : BitVec 8) (grp dev : BitVec 4)
    (hadapters : q.params.adapters = s.params.adapters) :
    SameTrain (execSwfamgrp on chr grp dev s) (execSwfamgrp on chr grp dev q) := by
  simp only [execSwfamgrp, hadapters]
  split_ifs
  · exact sameTrain_encFail _ _ _
  · exact sameTrain_encFail _ _ _
  · exact sameTrain_encFail _ _ _
  · exact sameTrain_encodeBits hs hq hplen _

end

/-! ## The obligations -/

/-- Settles O19, by the three ways SENDTS can end. -/
theorem sendtsEncodesOrFails : Obligations.SendtsEncodesOrFails := by
  refine ⟨decodeCmd_of_row 3 rfl (by decide), ⟨rfl, rfl, rfl⟩, fun s => ⟨fun hempty => ?_, fun hne hbad => ?_, ?_⟩⟩
  · exact (execSendts_eq_sendArg s).trans (sendArg_of_empty hempty)
  · have hmalformed : s.aovf = true ∨ maxTsDigits < s.argstr.length ∨ ∃ c ∈ s.argstr, digitOf c = none := by
      simpa only [digitOf_eq_none, char0, char1, charF] using hbad
    exact (execSendts_eq_sendArg s).trans (sendArg_of_malformed hne hmalformed)
  · intro ds r hne hlen harg hovf hr
    exact execSendts_of_digits hne hlen harg hovf hr

/-- Settles O20, by the three ways SENDVAL can end. -/
theorem sendvalEncodesOrFails : Obligations.SendvalEncodesOrFails := by
  refine ⟨fun w hw => decodeCmd_of_row 4 rfl hw, fun s len => ?_⟩
  rw [← toNat_val]
  refine ⟨fun hzero => ?_, fun hne hbad => ?_, fun bits r hne hlen hmax hval hr => ?_⟩
  · exact execSendval_of_zero (congrArg BitVec.toNat hzero)
  · exact execSendval_of_unfit (fun h => hne (BitVec.eq_of_toNat_eq h)) hbad
  · exact execSendval_of_bits hne hlen hmax hval hr

/-- Settles O21, by the three ways SENDBIN can end. -/
theorem sendbinEncodesOrFails : Obligations.SendbinEncodesOrFails := by
  refine ⟨decodeCmd_of_row 5 rfl (by decide), fun s => ⟨fun hempty => ?_, fun hne hbad => ?_, ?_⟩⟩
  · exact (execSendbin_eq_sendArg s).trans (sendArg_of_empty hempty)
  · have hmalformed : s.aovf = true ∨ valueW < s.argstr.length ∨ ∃ c ∈ s.argstr, bitOf c = none := by
      simpa only [bitOf_eq_none, char0, char1] using hbad
    exact (execSendbin_eq_sendArg s).trans (sendArg_of_malformed hne hmalformed)
  · intro bits r hne hlen harg hovf hr
    exact execSendbin_of_bits hne hlen harg hovf hr

/-- Settles O22: entry k of the train has duration k, which is a multiple times ACT_PLEN and does not wrap. -/
theorem encodedTrainEntries : Obligations.EncodedTrainEntries := by
  intro s r bits hr
  refine ⟨pulseTrain r s.actPlen.toNat bits, encodeBits_eq (activeRecord_of_activeIs hr), pulseTrain_length _ _ _,
    fun _ _ => level_of_pulseTrain, fun i b e f hb he hf => ?_, fun e f he hf => ?_⟩
  · have hhigh := getElem?_trainDurations_bit r s.actPlen.toNat (j := 0) (by decide) hb
    have hlow := getElem?_trainDurations_bit r s.actPlen.toNat (j := 1) (by decide) hb
    cases b <;> exact ⟨duration_of_pulseTrain hhigh he, duration_of_pulseTrain hlow hf⟩
  · have hhigh := getElem?_trainDurations_sync r s.actPlen.toNat bits 0
    have hlow := getElem?_trainDurations_sync r s.actPlen.toNat bits 1
    exact ⟨duration_of_pulseTrain hhigh he, duration_of_pulseTrain hlow hf⟩

/-- Settles O23: each of the three commands stores the train of Dibits(s). -/
theorem threeEncodePathsConverge : Obligations.ThreeEncodePathsConverge := by
  intro ds r s₁ s₂ s₃ len hne hlen hr₁ hr₂ hr₃ hplen₂ hplen₃ harg₁ hovf₁ hval hbits harg₃ hovf₃
  have hlength : (dibits ds).length = 2 * ds.length := dibits_length ds
  have hpos : 0 < ds.length := List.length_pos_of_ne_nil hne
  have hdibits : dibits ds ≠ [] := List.ne_nil_of_length_pos (by omega)
  have hts := execSendts_of_digits hne hlen harg₁ hovf₁ hr₁
  have hsendval := execSendval_of_bits hdibits (hlength.trans hbits.symm) (by omega)
    (hval.symm.trans (toNat_val s₂).symm) hr₂
  have hbin := execSendbin_of_bits hdibits (by omega) harg₃ hovf₃ hr₃
  exact ⟨_, _, _, hts, hsendval, hbin, rfl, rfl, rfl, pulseTrain_ne_nil _ _ _, by simp [hplen₂], by simp [hplen₃]⟩

/-- Settles O24: on the same operand a command takes the same branch from both states, and EncodeBits sees only the
active record and ACT_PLEN. -/
theorem encodeIsPure : Obligations.EncodeIsPure := by
  intro i s q r hclass hs hq hplen harg hval hadapters
  cases i with
  | sendts =>
    obtain ⟨hstr, hovf⟩ := harg rfl
    exact sameTrain_execSendts hs hq hplen hstr hovf
  | sendval len =>
    obtain ⟨hlo, hhi⟩ := hval len rfl
    exact sameTrain_execSendval hs hq hplen len (by rw [State.val, State.val, hlo, hhi])
  | sendbin =>
    obtain ⟨hstr, hovf⟩ := harg rfl
    exact sameTrain_execSendbin hs hq hplen hstr hovf
  | swslide on glen =>
    obtain ⟨hstr, hovf⟩ := harg rfl
    exact sameTrain_execSwslide hs hq hplen on glen hstr hovf (hadapters rfl)
  | swfamdev on chr dev => exact sameTrain_execSwfamdev hs hq hplen on chr dev (hadapters rfl)
  | swfamgrp on chr grp dev => exact sameTrain_execSwfamgrp hs hq hplen on chr grp dev (hadapters rfl)
  | nop | setproto | lookup | decode | clrpin | resetrx | clrarg | wrPulseIn | wrArgChar | busRead | busWrite =>
    cases hclass

end Sys2Proof.Machine

end

section
/-! PROOFS. The address adapters SWSLIDE, SWFAMDEV and SWFAMGRP (spec 42_address_adapters). -/

namespace Sys2Proof.Machine

/-! ## The digit tables of R123 and R125 to R127, as bits -/

theorem dibits_append (ds es : List Digit) : dibits (ds ++ es) = dibits ds ++ dibits es :=
  List.flatMap_append

/-- The digits F and 0 differ in their second bit alone (R108). -/
theorem digitBits_floating_or_zero (b : Bool) : digitBits (if b then .floating else .zero) = [false, b] := by
  cases b <;> rfl

/-- Two bits a switch, F for '0' and 0 for '1', then 0F for on and F0 for off (R123). -/
theorem dibits_slideDigits_default (on : Bool) (switches : List Bool) :
    dibits (slideDigits defaultAdapters on switches) =
      switches.flatMap (fun b => if b then [false, false] else [false, true]) ++
        (if on then [false, false, false, true] else [false, true, false, false]) := by
  have hswitch : ∀ b : Bool, digitBits (if b then defaultAdapters.slideOne else defaultAdapters.slideZero) =
      if b then [false, false] else [false, true] := by decide
  rw [slideDigits, dibits_append]
  congr 1
  · simp only [dibits, List.flatMap_map, hswitch]
  · cases on <;> rfl

/-- The bits that the given bit places of a number are sent as, F for a 1 and 0 for a 0 (R108, R125). -/
def sentBits (places : List Nat) (n : Nat) : List Bool := places.flatMap fun j => [false, n.testBit j]

theorem dibits_nibbleOf (n : Nat) : dibits (nibbleDigits (nibbleOf n)) = sentBits [0, 1, 2, 3] n := by
  simp only [dibits, nibbleDigits, nibbleOf, sentBits, List.flatMap_cons, List.flatMap_nil,
    digitBits_floating_or_zero]

/-- The default table holds Nib(x) at x (R125). -/
theorem nibOf_default (x : BitVec 4) : nibOf defaultAdapters x = nibbleDigits (nibbleOf x.toNat) := by
  revert x
  decide

/-- Family and unit, least significant bit first, then 0FFF for on and 0FF0 for off (R126, R127). -/
theorem dibits_familyDigits_default (on : Bool) {f u : Nat} (hf : f < 16) (hu : u < 16) :
    dibits (familyDigits defaultAdapters on (BitVec.ofNat 4 f) (BitVec.ofNat 4 u)) =
      sentBits [0, 1, 2, 3] f ++ sentBits [0, 1, 2, 3] u ++
        [false, false, false, true, false, true, false, on] := by
  have hstatus : dibits (nibbleDigits (if on then defaultAdapters.famStatusOn else defaultAdapters.famStatusOff)) =
      [false, false, false, true, false, true, false, on] := by cases on <;> rfl
  rw [familyDigits, dibits_append, dibits_append, hstatus, nibOf_default, nibOf_default, dibits_nibbleOf,
    dibits_nibbleOf, BitVec.toNat_ofNat, BitVec.toNat_ofNat, Nat.mod_eq_of_lt hf, Nat.mod_eq_of_lt hu]

/-- The unit number of a group and a device sends the device's two bits before the group's (R127). -/
theorem sentBits_unit (g : Nat) {v : Nat} (hv : v < 4) :
    sentBits [0, 1, 2, 3] (4 * g + v) = sentBits [0, 1] v ++ sentBits [0, 1] g := by
  have hbit (j : Nat) : (4 * g + v).testBit j = if j < 2 then v.testBit j else g.testBit (j - 2) :=
    Nat.testBit_two_pow_mul_add g (i := 2) hv j
  simp [sentBits, hbit]

/-! ## SWSLIDE -/

section
variable {s : State} {on : Bool} {glen : BitVec 4}

theorem execSwslide_of_malformed
    (hbad : s.aovf = true ∨ glen ≠ 5#4 ∨ s.argstr.length ≠ 10 ∨ ∃ c ∈ s.argstr, bitOf c = none) :
    execSwslide on glen s = encFail .invalidAddress s.clearArg := by
  rcases hbad with hovf | hglen | hlen | hchar
  · simp [execSwslide, hovf]
  · simp [execSwslide, hglen]
  · simp [execSwslide, hlen]
  · simp [execSwslide, readAll_eq_none.mpr hchar]

theorem execSwslide_of_switches {switches : List Bool} {r : Protocol} (hovf : s.aovf = false) (hglen : glen = 5#4)
    (hlen : switches.length = 10) (harg : s.argstr = switches.map bitChar) (hr : ActiveIs s r) :
    execSwslide on glen s = .next ((s.clearArg.setTxbuf
      (pulseTrain r s.actPlen.toNat (dibits (slideDigits s.params.adapters on switches)))).setErr .ok) := by
  have henc : execSwslide on glen s =
      encodeBits (dibits (slideDigits s.params.adapters on switches)) s.clearArg := by
    simp [execSwslide, hovf, hglen, harg, hlen, readAll_map bitOf_bitChar]
  rw [henc]
  exact encodeBits_eq (s := s.clearArg) (activeRecord_of_activeIs hr)

end

/-! ## SWFAMDEV and SWFAMGRP -/

theorem letterOk_eq_true {chr : BitVec 8} : letterOk chr = true ↔ 0x61 ≤ chr.toNat ∧ chr.toNat ≤ 0x70 := by
  simp [letterOk]

theorem letterOk_eq_false {chr : BitVec 8} : letterOk chr = false ↔ chr.toNat < 0x61 ∨ 0x70 < chr.toNat := by
  rw [← Bool.not_eq_true, letterOk_eq_true]
  omega

section
variable {s : State} {on : Bool} {chr : BitVec 8}

theorem execSwfamdev_of_invalid {dev : BitVec 8} (hbad : letterOk chr = false ∨ dev.toNat < 1 ∨ 16 < dev.toNat) :
    execSwfamdev on chr dev s = encFail .invalidAddress s := by
  rw [execSwfamdev]
  rcases hbad with hletter | hdev
  · rw [if_pos hletter]
  · rw [if_pos hdev, ite_self]

theorem execSwfamgrp_of_invalid {grp dev : BitVec 4}
    (hbad : letterOk chr = false ∨ (grp.toNat < 1 ∨ 4 < grp.toNat) ∨ dev.toNat < 1 ∨ 4 < dev.toNat) :
    execSwfamgrp on chr grp dev s = encFail .invalidAddress s := by
  rw [execSwfamgrp]
  rcases hbad with hletter | hgrp | hdev
  · rw [if_pos hletter]
  · rw [if_pos hgrp, ite_self]
  · rw [if_pos hdev, ite_self, ite_self]

/-- The common end of the family schemes, for the letter number f and the unit number u. -/
theorem encodeBits_familyDigits_default {f u : Nat} {r : Protocol} (hf : f < 16) (hu : u < 16)
    (hadapters : s.params.adapters = defaultAdapters) (hr : ActiveIs s r) :
    encodeBits (dibits (familyDigits s.params.adapters on (BitVec.ofNat 4 f) (BitVec.ofNat 4 u))) s =
      .next ((s.setTxbuf (pulseTrain r s.actPlen.toNat
        (sentBits [0, 1, 2, 3] f ++ sentBits [0, 1, 2, 3] u ++
          [false, false, false, true, false, true, false, on]))).setErr .ok) := by
  rw [hadapters, dibits_familyDigits_default on hf hu, encodeBits_eq (activeRecord_of_activeIs hr)]

theorem execSwfamdev_of_valid {dev : BitVec 8} (hletter : letterOk chr = true)
    (hdev : 1 ≤ dev.toNat ∧ dev.toNat ≤ 16) :
    execSwfamdev on chr dev s =
      encodeBits (dibits (familyDigits s.params.adapters on (BitVec.ofNat 4 (chr.toNat - 0x61))
        (BitVec.ofNat 4 (dev.toNat - 1)))) s := by
  rw [execSwfamdev, if_neg (by simp [hletter]), if_neg (by omega), familyOf]

theorem execSwfamgrp_of_valid {grp dev : BitVec 4} (hletter : letterOk chr = true)
    (hgrp : 1 ≤ grp.toNat ∧ grp.toNat ≤ 4) (hdev : 1 ≤ dev.toNat ∧ dev.toNat ≤ 4) :
    execSwfamgrp on chr grp dev s =
      encodeBits (dibits (familyDigits s.params.adapters on (BitVec.ofNat 4 (chr.toNat - 0x61))
        (BitVec.ofNat 4 (4 * (grp.toNat - 1) + (dev.toNat - 1))))) s := by
  rw [execSwfamgrp, if_neg (by simp [hletter]), if_neg (by omega), if_neg (by omega), familyOf]

end

/-! ## The obligations -/

/-- Settles O25, by the two ways SWSLIDE can end and the default digits as bits. -/
theorem swslideEncodesOrFails : Obligations.SwslideEncodesOrFails := by
  refine ⟨fun w hw => decodeCmd_of_row 6 rfl hw, fun s on glen => ⟨fun hbad => ?_, ?_⟩⟩
  · have hmalformed : s.aovf = true ∨ glen ≠ 5#4 ∨ s.argstr.length ≠ 10 ∨ ∃ c ∈ s.argstr, bitOf c = none := by
      simpa only [bitOf_eq_none, char0, char1] using hbad
    exact execSwslide_of_malformed hmalformed
  · intro switches r hovf hglen hlen harg hadapters hr
    rw [← dibits_slideDigits_default, ← hadapters]
    exact execSwslide_of_switches hovf hglen hlen harg hr

/-- Settles O26, by the two ways SWFAMDEV can end and the default digits as bits. -/
theorem swfamdevEncodesOrFails : Obligations.SwfamdevEncodesOrFails := by
  refine ⟨fun w hw => decodeCmd_of_row 7 rfl hw, fun s on chr dev => ⟨fun hbad => ?_, ?_⟩⟩
  · exact execSwfamdev_of_invalid (by rwa [letterOk_eq_false, or_assoc])
  · intro r hlo hhi h1 h16 hadapters hr
    exact (execSwfamdev_of_valid (letterOk_eq_true.mpr ⟨hlo, hhi⟩) ⟨h1, h16⟩).trans
      (encodeBits_familyDigits_default (by omega) (by omega) hadapters hr)

/-- Settles O27, by the two ways SWFAMGRP can end: the unit number 4(group - 1) + (device - 1) has the bits of
device - 1 below those of group - 1. -/
theorem swfamgrpEncodesOrFails : Obligations.SwfamgrpEncodesOrFails := by
  refine ⟨fun w hw => decodeCmd_of_row 8 rfl hw, fun s on chr grp dev => ⟨fun hbad => ?_, ?_⟩⟩
  · exact execSwfamgrp_of_invalid (by rwa [letterOk_eq_false, or_assoc, or_assoc])
  · intro r hlo hhi hg1 hg4 hd1 hd4 hadapters hr
    have hunit := sentBits_unit (grp.toNat - 1) (v := dev.toNat - 1) (by omega)
    have hsent := (execSwfamgrp_of_valid (s := s) (on := on) (letterOk_eq_true.mpr ⟨hlo, hhi⟩) ⟨hg1, hg4⟩
      ⟨hd1, hd4⟩).trans (encodeBits_familyDigits_default (by omega) (by omega) hadapters hr)
    rw [hunit, ← List.append_assoc] at hsent
    exact hsent

end Sys2Proof.Machine

end

section
/-! PROOFS. The pulse input commands, the tolerance test, and DECODE: frames, TryProtocol and the first fit (spec
43_decoder). -/

namespace Sys2Proof.Machine

/-! ## The tolerance test (R130, R131) -/

/-- Within 20%: d is in 80% .. 120% of a positive E. -/
theorem within_iff {d e : Nat} : within d e = true ↔ 0 < e ∧ 4 * e ≤ 5 * d ∧ 5 * d ≤ 6 * e := by
  simp only [within, absDiff, tolPct, Bool.and_eq_true, decide_eq_true_eq]
  omega

theorem within_eq_false {d e : Nat} : within d e = false ↔ e = 0 ∨ 5 * d < 4 * e ∨ 6 * e < 5 * d := by
  rw [← Bool.not_eq_true, within_iff]
  omega

/-! ## Runs of pairs that are bits (R136, R137) -/

/-- The first pairs of a sequence, where it holds them, are matched as the given bits, in order. -/
def PairsRead (r : Protocol) (u : Nat) (q : List Nat) (bits : List Bool) : Prop :=
  ∀ i a b, i < bits.length → q[2 * i]? = some a → q[2 * i + 1]? = some b → pairMatch r u a b = bits[i]?

/-- The sequence does not start with a pair that is a bit. -/
def NoBitFirst (r : Protocol) (u : Nat) (q : List Nat) : Prop :=
  ∀ a b, q[0]? = some a → q[1]? = some b → pairMatch r u a b = none

section
variable {r : Protocol} {u : Nat}

@[simp] theorem pairsRead_nil (q : List Nat) : PairsRead r u q [] := by
  intro i a b hi
  cases hi

@[simp] theorem pairsRead_cons {a b : Nat} {rest : List Nat} {x : Bool} {xs : List Bool} :
    PairsRead r u (a :: b :: rest) (x :: xs) ↔ pairMatch r u a b = some x ∧ PairsRead r u rest xs := by
  constructor
  · intro h
    exact ⟨h 0 a b (by simp) rfl rfl, fun i a' b' hi ha hb => h (i + 1) a' b' (Nat.succ_lt_succ hi) ha hb⟩
  · rintro ⟨hx, hxs⟩ i a' b' hi ha hb
    cases i with
    | zero =>
      cases ha
      cases hb
      exact hx
    | succ i => exact hxs i a' b' (Nat.lt_of_succ_lt_succ hi) ha hb

/-- Only the durations of the bits are read. -/
theorem pairsRead_take {q : List Nat} {bits : List Bool} :
    PairsRead r u (q.take (2 * bits.length)) bits ↔ PairsRead r u q bits := by
  refine forall₄_congr fun i a b hi => ?_
  rw [List.getElem?_take_of_lt (by omega), List.getElem?_take_of_lt (by omega)]

@[simp] theorem noBitFirst_cons {a b : Nat} {rest : List Nat} :
    NoBitFirst r u (a :: b :: rest) ↔ pairMatch r u a b = none := by
  simp [NoBitFirst]

theorem noBitFirst_of_short {q : List Nat} (h : q.length < 2) : NoBitFirst r u q := by
  intro a b _ hb
  exact absurd (List.getElem?_eq_some_iff.mp hb).1 (by omega)

/-- The bits of all the pairs (R136), said by position. -/
theorem allPairs_eq_some {q : List Nat} {bits : List Bool} :
    allPairs r u q = some bits ↔ q.length = 2 * bits.length ∧ PairsRead r u q bits := by
  induction q using List.twoStepInduction generalizing bits with
  | nil => cases bits <;> simp [allPairs]
  | singleton a =>
    simp only [allPairs, List.length_singleton, reduceCtorEq, false_iff]
    omega
  | cons_cons a b rest ih _ =>
    cases bits with
    | nil => cases hx : pairMatch r u a b <;> cases hxs : allPairs r u rest <;> simp [allPairs, hx, hxs]
    | cons x xs =>
      have hlen : (a :: b :: rest).length = 2 * (x :: xs).length ↔ rest.length = 2 * xs.length := by
        simp only [List.length_cons]
        omega
      rw [hlen, pairsRead_cons, and_left_comm, ← ih]
      cases hx : pairMatch r u a b <;> cases hxs : allPairs r u rest <;> simp [allPairs, hx, hxs]

/-- The bits that a walk collects and what it leaves (R137), said by position. -/
theorem followWalk_eq {q left : List Nat} {bits : List Bool} :
    followWalk r u q = (bits, left) ↔
      2 * bits.length ≤ q.length ∧ PairsRead r u q bits ∧ NoBitFirst r u (q.drop (2 * bits.length)) ∧
        q.drop (2 * bits.length) = left := by
  induction q using List.twoStepInduction generalizing bits with
  | nil => cases bits <;> simp [followWalk, noBitFirst_of_short]
  | singleton a =>
    cases bits with
    | nil => simp [followWalk, noBitFirst_of_short]
    | cons x xs =>
      simp only [followWalk, List.length_cons, List.length_nil, Prod.mk.injEq, reduceCtorEq, false_and, false_iff]
      omega
  | cons_cons a b rest ih _ =>
    cases bits with
    | nil => cases hx : pairMatch r u a b <;> simp [followWalk, hx]
    | cons x xs =>
      have hlen : 2 * (x :: xs).length ≤ (a :: b :: rest).length ↔ 2 * xs.length ≤ rest.length := by
        simp only [List.length_cons]
        omega
      have hdrop : (a :: b :: rest).drop (2 * (x :: xs).length) = rest.drop (2 * xs.length) := rfl
      rw [hlen, hdrop, pairsRead_cons, and_assoc, and_left_comm, ← ih]
      cases hx : pairMatch r u a b <;> simp [followWalk, hx, Prod.ext_iff, and_assoc]

/-- Where a walk stops at no bit, it may end there exactly on exhaustion or at another sync pair (R137). -/
theorem noBitFirst_and_stoppedOk {q : List Nat} :
    NoBitFirst r u q ∧ stoppedOk r q = true ↔
      q.length < 2 ∨
        ∃ a b v, q[0]? = some a ∧ q[1]? = some b ∧ pairMatch r u a b = none ∧ syncMatch r a b = some v := by
  match q with
  | [] => simp [stoppedOk, noBitFirst_of_short]
  | [_] => simp [stoppedOk, noBitFirst_of_short]
  | a :: b :: rest => simp [stoppedOk, Option.isSome_iff_exists]

end

/-! ## Frames (R136 to R138) -/

section
variable {m : Nat} {r : Protocol} {u : Nat} {bits : List Bool}

theorem bitCountOk_iff {m n : Nat} : bitCountOk m n = true ↔ m ≤ n ∧ n ≤ 64 := by
  simp [bitCountOk]

theorem leadFrame_eq_some {p : List Nat} {s : Nat} :
    leadFrame m r p s u = some bits ↔
      allPairs r u (p.take s) = some bits ∧ m ≤ bits.length ∧ bits.length ≤ 64 := by
  rw [leadFrame, ← bitCountOk_iff]
  cases allPairs r u (p.take s) with
  | none => simp
  | some read =>
    simp only [Option.ite_none_right_eq_some, Option.some.injEq]
    constructor
    · rintro ⟨hcount, rfl⟩
      exact ⟨rfl, hcount⟩
    · rintro ⟨rfl, hcount⟩
      exact ⟨hcount, rfl⟩

theorem followFrame_eq_some {after : List Nat} :
    followFrame m r u after = some bits ↔
      ∃ left, followWalk r u after = (bits, left) ∧ stoppedOk r left = true ∧ m ≤ bits.length ∧
        bits.length ≤ 64 := by
  simp only [followFrame, Option.ite_none_right_eq_some, Bool.and_eq_true, Option.some.injEq, ← bitCountOk_iff,
    Prod.ext_iff]
  constructor
  · rintro ⟨⟨hstop, hcount⟩, rfl⟩
    exact ⟨_, ⟨rfl, rfl⟩, hstop, hcount⟩
  · rintro ⟨_, ⟨rfl, rfl⟩, hstop, hcount⟩
    exact ⟨⟨hstop, hcount⟩, rfl⟩

end

/-! ## The first of several tries (R139, R140) -/

/-- The tries 0, 1, 2, ... answer x at k, and nothing before k. -/
def FirstAt {α : Type} (f : Nat → Option α) (k : Nat) (x : α) : Prop := f k = some x ∧ ∀ k' < k, f k' = none

theorem firstAt_zero {α : Type} {f : Nat → Option α} {x : α} : FirstAt f 0 x ↔ f 0 = some x := by
  simp [FirstAt]

theorem firstAt_succ {α : Type} {f : Nat → Option α} {k : Nat} {x : α} :
    FirstAt f (k + 1) x ↔ f 0 = none ∧ FirstAt (fun j => f (j + 1)) k x := by
  simp only [FirstAt, Nat.forall_lt_succ_left]
  tauto

/-- The first try answers, or it does not and a later one is the first to answer. -/
theorem exists_firstAt {α : Type} {f : Nat → Option α} {x : α} :
    (∃ k, FirstAt f k x) ↔ f 0 = some x ∨ f 0 = none ∧ ∃ k, FirstAt (fun j => f (j + 1)) k x := by
  rw [← Nat.or_exists_add_one]
  simp only [firstAt_zero, firstAt_succ, exists_and_left]

/-! ## TryProtocol (R135, R139) -/

/-- The frame of the candidate at the start of `q`, at position s of p, with its unit: the leading frame before the
following one. Where `q` starts with no sync pair there is none. -/
def frameAt (m : Nat) (r : Protocol) (p : List Nat) (s : Nat) : List Nat → Option (Nat × List Bool)
  | a :: b :: rest =>
    (syncMatch r a b).bind fun u => ((leadFrame m r p s u).or (followFrame m r u rest)).map (u, ·)
  | _ => none

section
variable {m : Nat} {r : Protocol} {p : List Nat} {s : Nat}

theorem frameAt_of_short {q : List Nat} (h : q.length < 2) : frameAt m r p s q = none := by
  match q, h with
  | [], _ => rfl
  | [_], _ => rfl

/-- The scan answers the candidate's frame where there is one, and goes on by a pair where there is none. -/
theorem tryFrom_cons {a b : Nat} {rest : List Nat} :
    tryFrom m r p s (a :: b :: rest) =
      (frameAt m r p s (a :: b :: rest)).or (tryFrom m r p (s + 2) rest) := by
  rw [tryFrom, frameAt]
  cases syncMatch r a b with
  | none => rfl
  | some u => cases hl : leadFrame m r p s u <;> cases hf : followFrame m r u rest <;> simp [hl, hf]

theorem frameAt_eq_some {q : List Nat} {u : Nat} {bits : List Bool} :
    frameAt m r p s q = some (u, bits) ↔
      ∃ a b, q[0]? = some a ∧ q[1]? = some b ∧ syncMatch r a b = some u ∧
        (leadFrame m r p s u = some bits ∨
          (leadFrame m r p s u = none ∧ followFrame m r u (q.drop 2) = some bits)) := by
  match q with
  | [] => simp [frameAt]
  | [_] => simp [frameAt]
  | a :: b :: rest => simp [frameAt, Option.bind_eq_some_iff, Option.or_eq_some_iff]

theorem frameAt_eq_none {q : List Nat} :
    frameAt m r p s q = none ↔
      ∀ a b u, q[0]? = some a → q[1]? = some b → syncMatch r a b = some u →
        leadFrame m r p s u = none ∧ followFrame m r u (q.drop 2) = none := by
  match q with
  | [] => simp [frameAt]
  | [_] => simp [frameAt]
  | a :: b :: rest =>
    simp only [frameAt, Option.bind_eq_none_iff, Option.map_eq_none_iff, Option.or_eq_none_iff]
    constructor
    · rintro h _ _ u ⟨⟩ ⟨⟩
      exact h u
    · intro h u
      exact h a b u rfl rfl

/-- A sequence of fewer than two durations holds no candidate. -/
theorem not_exists_firstAt_of_short {q : List Nat} {x : Nat × List Bool} (h : q.length < 2) :
    ¬ ∃ k, FirstAt (fun j => frameAt m r p (s + 2 * j) (q.drop (2 * j))) k x := by
  rintro ⟨k, hk, -⟩
  have hshort : (q.drop (2 * k)).length < 2 := by
    rw [List.length_drop]
    omega
  cases (frameAt_of_short hshort).symm.trans hk

/-- The scan answers the first frame among the candidates at the even positions. -/
theorem tryFrom_eq_some {q : List Nat} {x : Nat × List Bool} :
    tryFrom m r p s q = some x ↔ ∃ k, FirstAt (fun j => frameAt m r p (s + 2 * j) (q.drop (2 * j))) k x := by
  induction q using List.twoStepInduction generalizing s with
  | nil => exact iff_of_false (by simp [tryFrom]) (not_exists_firstAt_of_short (by simp))
  | singleton a => exact iff_of_false (by simp [tryFrom]) (not_exists_firstAt_of_short (by simp))
  | cons_cons a b rest ih _ =>
    have hnext (j : Nat) : frameAt m r p (s + 2 * (j + 1)) ((a :: b :: rest).drop (2 * (j + 1))) =
        frameAt m r p (s + 2 + 2 * j) (rest.drop (2 * j)) := by
      rw [Nat.mul_succ, ← Nat.add_assoc, Nat.add_right_comm]
      rfl
    rw [exists_firstAt, tryFrom_cons, Option.or_eq_some_iff, ih]
    simp only [hnext]
    rfl

/-- TryProtocol answers the first frame among the candidates at the even positions (R139). -/
theorem tryProtocol_eq_some {x : Nat × List Bool} :
    tryProtocol m r p = some x ↔ ∃ k, FirstAt (fun j => frameAt m r p (2 * j) (p.drop (2 * j))) k x := by
  simp only [tryProtocol, tryFrom_eq_some, Nat.zero_add]

end

/-! ## The first fit and DECODE (R140, R141) -/

section
variable {m : Nat} {p : List Nat}

theorem firstFit_eq_none {id : Nat} {rs : List Protocol} :
    firstFit m p id rs = none ↔ ∀ r ∈ rs, tryProtocol m r p = none := by
  induction rs generalizing id with
  | nil => simp [firstFit]
  | cons r rs ih => cases h : tryProtocol m r p <;> simp [firstFit, h, ih]

/-- The least id whose record answers wins (R140). -/
theorem firstFit_of_first {id j : Nat} {rs : List Protocol} {x : Nat × List Bool}
    (h : FirstAt (fun i => rs[i]?.bind fun r => tryProtocol m r p) j x) : firstFit m p id rs = some (id + j, x) := by
  induction rs generalizing id j with
  | nil => simp [FirstAt] at h
  | cons r rs ih =>
    cases j with
    | zero =>
      have hr : tryProtocol m r p = some x := firstAt_zero.mp h
      simp [firstFit, hr]
    | succ j =>
      obtain ⟨hnone, hlater⟩ := firstAt_succ.mp h
      have hr : tryProtocol m r p = none := hnone
      rw [firstFit, hr, ← Nat.add_assoc, Nat.add_right_comm]
      exact ih hlater

end

theorem decodeTrain_eq_none {m : Nat} {rom : List Protocol} {raw : List (BitVec 32)} :
    decodeTrain m rom raw = none ↔ ∀ r ∈ rom, tryProtocol m r (raw.map BitVec.toNat) = none := by
  rw [← firstFit_eq_none (id := 1), decodeTrain]
  cases firstFit m (raw.map BitVec.toNat) 1 rom <;> simp

theorem decodeTrain_of_first {m j u : Nat} {rom : List Protocol} {raw : List (BitVec 32)} {bits : List Bool}
    (h : FirstAt (fun i => rom[i]?.bind fun r => tryProtocol m r (raw.map BitVec.toNat)) j (u, bits)) :
    decodeTrain m rom raw = some
      { proto := BitVec.ofNat 8 (j + 1)
        delay := BitVec.ofNat 32 u
        bitlen := BitVec.ofNat 7 bits.length
        value := BitVec.ofNat 64 (bitsToNat bits)
        raw := raw } := by
  rw [decodeTrain, firstFit_of_first h, Nat.add_comm]

/-! ## The obligations -/

/-- Settles O30, by the two cases of the push. -/
theorem pulseInPushesOrOverflows : Obligations.PulseInPushesOrOverflows := by
  intro s w
  rcases pushPulse_cases w s with ⟨hroom, hpush⟩ | ⟨hfull, hset⟩
  · exact ⟨fun _ => congrArg Host.Outcome.next hpush, fun hfull => absurd hroom (Nat.not_lt.mpr hfull)⟩
  · exact ⟨fun hroom => absurd hroom (Nat.not_lt.mpr hfull), fun _ => congrArg Host.Outcome.next hset⟩

/-- Settles O31: CLRPIN is the emptying of PIN, then `succeed`. -/
theorem clrpinEmptiesPin : Obligations.ClrpinEmptiesPin :=
  ⟨decodeCmd_of_row 10 rfl (by decide), fun s => succeed_eq s.clearPin⟩

/-- Settles O32: over the integers the distance is at most E / 5 exactly when d is in 4E/5 .. 6E/5. -/
theorem withinIsTheToleranceTest : Obligations.WithinIsTheToleranceTest := by
  intro d e
  have hdist : 100 * |(d : Int) - e| ≤ 20 * e ↔ -(e : Int) ≤ 5 * (d - e) ∧ 5 * ((d : Int) - e) ≤ e := by
    rw [← abs_le, abs_mul]
    norm_num
    omega
  rw [within_iff, hdist]
  omega

/-- Settles O33: the six deviations stand on the two sides of 80% and 120%. -/
theorem toleranceBoundary : Obligations.ToleranceBoundary := by
  intro k hk
  simp only [within_iff, within_eq_false]
  omega

/-- Settles O35: the leading frame reads all the pairs of the first 2k durations. -/
theorem leadingFrameIsTheRunBeforeSync : Obligations.LeadingFrameIsTheRunBeforeSync := by
  intro m r p k u bits hk
  have hlen : (p.take (2 * k)).length = 2 * bits.length ↔ bits.length = k := by
    rw [List.length_take]
    omega
  rw [leadFrame_eq_some, allPairs_eq_some, hlen, and_assoc]
  refine and_congr_right fun hbits => ?_
  subst hbits
  rw [pairsRead_take, and_comm, and_assoc]
  rfl

/-- Settles O36: the walk's bits and its rest are fixed by position, and where it stops it must be allowed to. -/
theorem followingFrameIsTheRunAfterSync : Obligations.FollowingFrameIsTheRunAfterSync := by
  intro m r u q bits
  have hend : (q.drop (2 * bits.length)).length < 2 ↔ q.length < 2 * bits.length + 2 := by
    rw [List.length_drop]
    omega
  have hstop := noBitFirst_and_stoppedOk (r := r) (u := u) (q := q.drop (2 * bits.length))
  rw [hend] at hstop
  simp only [List.getElem?_drop, Nat.add_zero] at hstop
  rw [← hstop, followFrame_eq_some]
  constructor
  · rintro ⟨left, hwalk, hok, hmin, hmax⟩
    obtain ⟨hlen, hread, hnobit, rfl⟩ := followWalk_eq.mp hwalk
    exact ⟨hmin, hmax, hlen, hread, hnobit, hok⟩
  · rintro ⟨hmin, hmax, hlen, hread, hnobit, hok⟩
    exact ⟨_, followWalk_eq.mpr ⟨hlen, hread, hnobit, rfl⟩, hok, hmin, hmax⟩

/-- Settles O37: the scan's first frame among the candidates at the even positions. -/
theorem tryProtocolTakesTheFirstFrame : Obligations.TryProtocolTakesTheFirstFrame := by
  intro m r p u bits
  simp only [tryProtocol_eq_some, FirstAt, frameAt_eq_some, frameAt_eq_none, List.getElem?_drop, List.drop_drop,
    Nat.add_zero]
  constructor
  · rintro ⟨k, ⟨a, b, ha, hb, hsync, hframe⟩, hearlier⟩
    exact ⟨k, a, b, ha, hb, hsync, hframe, fun k' a' b' u' hk' => hearlier k' hk' a' b' u'⟩
  · rintro ⟨k, a, b, ha, hb, hsync, hframe, hearlier⟩
    exact ⟨k, ⟨a, b, ha, hb, hsync, hframe⟩, fun k' hk' a' b' u' => hearlier k' a' b' u' hk'⟩

/-- Settles O38, by the three ways DECODE can end. -/
theorem decodePublishesTheFirstFit : Obligations.DecodePublishesTheFirstFit := by
  refine ⟨decodeCmd_of_row 9 rfl (by decide), fun s => ⟨fun hovf => ?_, fun hovf hnone => ?_, ?_⟩⟩
  · exact execDecode_of_povf hovf
  · exact execDecode_of_no_fit hovf (decodeTrain_eq_none.mpr hnone)
  · intro j r u bits hovf hr hfit hearlier
    refine execDecode_of_fit hovf (decodeTrain_of_first ⟨by simp [hr, hfit], fun i hi => ?_⟩)
    exact Option.bind_eq_none_iff.mpr fun r' hr' => hearlier i r' hi hr'

end Sys2Proof.Machine

end

section
/-! PROOFS. NOP, RESETRX and CLRARG (spec 44_receiver_and_control), and what shows that RX is not valid. -/

namespace Sys2Proof.Machine

/-! ## STATUS (R30, R32) -/

/-- STATUS as a sum of its fields. -/
theorem statusWord_eq (s : State) :
    s.statusWord =
      BitVec.ofNat 32 (64 * s.aovf.toNat + 32 * s.povf.toNat + 16 * s.rxValid.toNat + s.err.code.toNat) := by
  have haovf := s.aovf.toNat_le
  have hpovf := s.povf.toNat_le
  have hrxv := s.rxValid.toNat_le
  have hcode := s.err.code.isLt
  have h0 : (place s.err.code 0).toNat = s.err.code.toNat := toNat_place_zero _ (by decide)
  have h4 := toNat_placeBit_or s.rxValid 4 (place s.err.code 0) (by omega) (by omega)
  have h5 := toNat_placeBit_or s.povf 5 (placeBit s.rxValid 4 ||| place s.err.code 0) (by omega) (by omega)
  have h6 := toNat_placeBit_or s.aovf 6 (placeBit s.povf 5 ||| (placeBit s.rxValid 4 ||| place s.err.code 0))
    (by omega) (by omega)
  rw [State.statusWord, BitVec.or_assoc, BitVec.or_assoc]
  apply BitVec.eq_of_toNat_eq
  rw [BitVec.toNat_ofNat]
  omega

/-- Bit 4 of STATUS is RXV: ERR's four bits stand below it, the overflow flags above. -/
theorem statusWord_getLsbD_rxv (s : State) : s.statusWord.getLsbD 4 = s.rxValid := by
  simp [State.statusWord]

/-- Without an overflow flag, a result in RX or an error, STATUS is 0. -/
theorem statusWord_eq_zero {s : State} (haovf : s.aovf = false) (hpovf : s.povf = false) (hrx : s.rxValid = false)
    (herr : s.err = .ok) : s.statusWord = 0#32 := by
  rw [statusWord_eq, haovf, hpovf, hrx, herr]
  rfl

/-! ## RX not valid (R61, R64) -/

theorem execBusRead_of_rxView {s : State} {reg : Reg} (hrx : s.rx = none) (hview : isRxView reg = true) :
    execBusRead reg s = .fault (.rxInvalidRead reg) := by
  have hvalid : s.rxValid = false := by simp [State.rxValid, hrx]
  simp only [execBusRead, readReg_eq_none.mpr ⟨hview, hvalid⟩]

/-- A DECODE that fails leaves RX alone: only its success publishes a result. -/
theorem execDecode_rx_of_err {s t : State} (h : execDecode s = .next t) (herr : t.err ≠ .ok) : t.rx = s.rx := by
  obtain ⟨e, -, rfl⟩ | ⟨x, -, -, rfl⟩ := execDecode_cases h
  · rfl
  · exact absurd rfl herr

/-! ## The obligations -/

/-- Settles O42: NOP is `succeed`, and its row is the first of R90. -/
theorem nopOnlyClearsErr : Obligations.NopOnlyClearsErr :=
  ⟨decodeCmd_of_row 0 rfl (by decide), succeed_eq⟩

/-- Settles O43: RESETRX is the loss of RX, then `succeed`; the rest is what any state without a result shows. -/
theorem resetrxInvalidatesRx : Obligations.ResetrxInvalidatesRx := by
  refine ⟨decodeCmd_of_row 11 rfl (by decide), fun s => ⟨succeed_eq (s.setRx none), ?_, ?_, ?_, ?_⟩⟩
  · exact statusWord_getLsbD_rxv _
  · exact fun hpovf haovf => statusWord_eq_zero haovf hpovf rfl rfl
  · exact fun reg hview => execBusRead_of_rxView rfl hview
  · exact fun q t hrx hexec herr => (execDecode_rx_of_err hexec herr).trans hrx

/-- Settles O44: CLRARG is the emptying of ARGSTR, then `succeed`. -/
theorem clrargEmptiesArgstr : Obligations.ClrargEmptiesArgstr :=
  ⟨decodeCmd_of_row 12 rfl (by decide), fun s => succeed_eq s.clearArg⟩

end Sys2Proof.Machine

end

section
/-! PROOFS. The reset state of a build (spec R168). -/

namespace Sys2Proof.Machine

/-! ## What reset takes from the build, and RX without a result -/

/-- ACT_PLEN is ROM[1].pulseLength. -/
theorem resetOf_actPlen {c : Config} {r : Protocol} {rs : List Protocol} (h : c.protoTable = r :: rs) :
    (State.resetOf c).actPlen = r.pulseLength := by
  simp only [State.resetOf, h, List.head?_cons, Option.map_some, Option.getD_some]

/-- The default table's first record has the pulse length 350. -/
theorem reset_actPlen : State.reset.actPlen = 350#16 :=
  resetOf_actPlen (c := defaultConfig) rfl

/-- No DECODE has succeeded since reset, so each RX view is without a value (R64). -/
theorem exec_busRead_resetOf_of_rxView (c : Config) {reg : Reg} (hview : isRxView reg = true) :
    exec (.busRead reg) (State.resetOf c) = .fault (.rxInvalidRead reg) :=
  execBusRead_of_rxView rfl hview

/-! ## The obligation -/

/-- Settles O1: `State.resetOf` writes R168's values out, but for ACT_PLEN, which it looks up in the table, and the
reads of RX, which follow from RX holding no result. -/
theorem resetSetsEveryStateElement : Obligations.ResetSetsEveryStateElement := by
  intro c r rs htable
  exact ⟨rfl, rfl, rfl, rfl, fun _ hview => exec_busRead_resetOf_of_rxView c hview, rfl, rfl, rfl, rfl, rfl,
    resetOf_actPlen htable, rfl, rfl, rfl, rfl, rfl, rfl, rfl, rfl, reset_actPlen⟩

end Sys2Proof.Machine

end

section
/-! PROOFS. What the encoder sends the decoder reads back (spec 43_decoder sections 3 and 4, 41_encoder section 2). -/

namespace Sys2Proof.Machine

/-! ## Positive multiples match themselves -/

theorem within_self {e : Nat} (h : 0 < e) : within e e = true := by
  rw [within_iff]
  omega

/-- Comparing multiples of one pulse length compares the multiples. -/
theorem within_mul_right {d e L : Nat} (hL : 0 < L) : within (d * L) (e * L) = within d e := by
  rw [Bool.eq_iff_iff, within_iff, within_iff, Nat.mul_pos_iff_of_pos_right hL]
  simp only [← Nat.mul_assoc, Nat.mul_le_mul_right_iff hL]

theorem syncMatch_eq_some {r : Protocol} {a b u : Nat} :
    syncMatch r a b = some u ↔
      u = a / r.syncHigh.toNat ∧ 1 ≤ u ∧ within a (r.syncHigh.toNat * u) = true ∧
        within b (r.syncLow.toNat * u) = true := by
  simp only [syncMatch, Option.ite_none_right_eq_some, Bool.and_eq_true, decide_eq_true_eq, Option.some.injEq]
  constructor
  · rintro ⟨⟨⟨hpos, ha⟩, hb⟩, rfl⟩
    exact ⟨rfl, hpos, ha, hb⟩
  · rintro ⟨rfl, hpos, ha, hb⟩
    exact ⟨⟨⟨hpos, ha⟩, hb⟩, rfl⟩

theorem pairMatch_eq_some_false {r : Protocol} {u a b : Nat} :
    pairMatch r u a b = some false ↔
      within a (r.zeroHigh.toNat * u) = true ∧ within b (r.zeroLow.toNat * u) = true := by
  simp only [pairMatch, ← Bool.and_eq_true]
  split_ifs with hzero <;> simp [hzero]

theorem pairMatch_eq_some_true {r : Protocol} {u a b : Nat} :
    pairMatch r u a b = some true ↔
      ¬ (within a (r.zeroHigh.toNat * u) = true ∧ within b (r.zeroLow.toNat * u) = true) ∧
        within a (r.oneHigh.toNat * u) = true ∧ within b (r.oneLow.toNat * u) = true := by
  simp only [pairMatch, ← Bool.and_eq_true]
  split_ifs with hzero hone
  · simp [hzero]
  · simp [hzero, hone]
  · simp [hzero, hone]

/-- A zero duration is within tolerance of nothing (R144). -/
@[simp] theorem within_zero (e : Nat) : within 0 e = false := by
  rw [within_eq_false]
  omega

/-- A pair is a bit only if its first duration fits the first of one of the two shapes. -/
theorem pairMatch_eq_none {r : Protocol} {u a : Nat} (b : Nat) (hzero : within a (r.zeroHigh.toNat * u) = false)
    (hone : within a (r.oneHigh.toNat * u) = false) : pairMatch r u a b = none := by
  simp [pairMatch, hzero, hone]

/-! ## Records whose trains cannot be misread -/

/-- A pair of the given multiples has not the ratio of the record's sync pair, at any unit. -/
def UnlikeSync (r : Protocol) (high low : Nat) : Prop :=
  6 * r.syncLow.toNat * high < 5 * low * r.syncHigh.toNat ∨ 3 * r.syncHigh.toNat * low < 2 * high * r.syncLow.toNat

/-- A pair that is taken for a sync pair, its first duration `high` pulse lengths long, gives a unit so small that
every pair of a train is too long to be a bit at that unit. -/
def UnitTooSmall (r : Protocol) (high : Nat) : Prop :=
  ∀ bit ∈ [r.zeroHigh, r.oneHigh], ∀ sent ∈ [r.zeroHigh, r.oneHigh, r.syncHigh],
    6 * bit.toNat * high < 5 * sent.toNat * r.syncHigh.toNat

/-- No multiple of the record is zero, its one shape is not its zero shape, and neither bit pair passes for a sync
pair at whose unit a frame could be read. -/
structure Unambiguous (r : Protocol) : Prop where
  wf : r.wf = true
  shapes_apart :
    ¬ (within r.oneHigh.toNat r.zeroHigh.toNat = true ∧ within r.oneLow.toNat r.zeroLow.toNat = true)
  zero_no_sync : UnlikeSync r r.zeroHigh.toNat r.zeroLow.toNat ∨ UnitTooSmall r r.zeroHigh.toNat
  one_no_sync : UnlikeSync r r.oneHigh.toNat r.oneLow.toNat ∨ UnitTooSmall r r.oneHigh.toNat

theorem unambiguous_default : ∀ r ∈ defaultProtoTable, Unambiguous r := by
  have h : ∀ r ∈ defaultProtoTable, r.wf = true ∧
      ¬ (within r.oneHigh.toNat r.zeroHigh.toNat = true ∧ within r.oneLow.toNat r.zeroLow.toNat = true) ∧
      (UnlikeSync r r.zeroHigh.toNat r.zeroLow.toNat ∨ UnitTooSmall r r.zeroHigh.toNat) ∧
      (UnlikeSync r r.oneHigh.toNat r.oneLow.toNat ∨ UnitTooSmall r r.oneHigh.toNat) := by
    unfold UnlikeSync UnitTooSmall
    decide
  intro r hr
  obtain ⟨hwf, hshapes, hzero, hone⟩ := h r hr
  exact ⟨hwf, hshapes, hzero, hone⟩

/-- The six multiples of a well-formed record are positive. -/
theorem multiples_pos {r : Protocol} (h : r.wf = true) :
    0 < r.syncHigh.toNat ∧ 0 < r.syncLow.toNat ∧ 0 < r.zeroHigh.toNat ∧ 0 < r.zeroLow.toNat ∧
      0 < r.oneHigh.toNat ∧ 0 < r.oneLow.toNat := by
  obtain ⟨-, hsh, hsl, hzh, hzl, hoh, hol⟩ := Protocol.wf_iff.mp h
  have hpos {m : BitVec 8} (hm : m ≠ 0#8) : 0 < m.toNat :=
    Nat.pos_of_ne_zero fun h0 => hm (BitVec.eq_of_toNat_eq h0)
  exact ⟨hpos hsh, hpos hsl, hpos hzh, hpos hzl, hpos hoh, hpos hol⟩

section
variable {r : Protocol} {L : Nat}

theorem syncMatch_sync_pair (hr : Unambiguous r) (hL : 1 ≤ L) :
    syncMatch r (r.syncHigh.toNat * L) (r.syncLow.toNat * L) = some L := by
  obtain ⟨hhigh, hlow, -⟩ := multiples_pos hr.wf
  exact syncMatch_eq_some.mpr ⟨(Nat.mul_div_cancel_left L hhigh).symm, hL,
    within_self (Nat.mul_pos hhigh hL), within_self (Nat.mul_pos hlow hL)⟩

theorem pairMatch_zero_pair (hr : Unambiguous r) (hL : 1 ≤ L) :
    pairMatch r L (r.zeroHigh.toNat * L) (r.zeroLow.toNat * L) = some false := by
  obtain ⟨-, -, hhigh, hlow, -⟩ := multiples_pos hr.wf
  simp [pairMatch, within_self (Nat.mul_pos hhigh hL), within_self (Nat.mul_pos hlow hL)]

theorem pairMatch_one_pair (hr : Unambiguous r) (hL : 1 ≤ L) :
    pairMatch r L (r.oneHigh.toNat * L) (r.oneLow.toNat * L) = some true := by
  obtain ⟨-, -, -, -, hhigh, hlow⟩ := multiples_pos hr.wf
  have hzero : ¬ (within (r.oneHigh.toNat * L) (r.zeroHigh.toNat * L) &&
      within (r.oneLow.toNat * L) (r.zeroLow.toNat * L)) = true := by
    rw [within_mul_right hL, within_mul_right hL, Bool.and_eq_true]
    exact hr.shapes_apart
  rw [pairMatch, if_neg hzero, within_self (Nat.mul_pos hhigh hL), within_self (Nat.mul_pos hlow hL)]
  rfl

/-- The pairs of a train's bits read back as the bits, at the pulse length. -/
theorem allPairs_flatMap_bitPulses (hr : Unambiguous r) (hL : 1 ≤ L) (bits : List Bool) :
    allPairs r L (bits.flatMap (bitPulses r L)) = some bits := by
  induction bits with
  | nil => rfl
  | cons b bs ih =>
    cases b with
    | false => simp [bitPulses, allPairs, pairMatch_zero_pair hr hL, ih]
    | true => simp [bitPulses, allPairs, pairMatch_one_pair hr hL, ih]

/-- A pair whose ratio is off is no sync pair at any pulse length. -/
theorem syncMatch_of_unlikeSync {high low : Nat} (hhigh : 0 < r.syncHigh.toNat) (h : UnlikeSync r high low) :
    syncMatch r (high * L) (low * L) = none := by
  rw [Option.eq_none_iff_forall_ne_some]
  intro u hu
  obtain ⟨rfl, hpos, ha, hb⟩ := syncMatch_eq_some.mp hu
  generalize hq : high * L / r.syncHigh.toNat = u at *
  obtain ⟨-, -, ha⟩ := within_iff.mp ha
  obtain ⟨-, hlo, hhi⟩ := within_iff.mp hb
  have hdown : r.syncHigh.toNat * u ≤ high * L := hq ▸ Nat.mul_div_le _ _
  have hL : 0 < L := by
    rcases Nat.eq_zero_or_pos L with rfl | hL
    · have := Nat.mul_pos hhigh hpos
      omega
    · exact hL
  rcases h with hlong | hshort
  · have hlow := Nat.mul_le_mul_left r.syncHigh.toNat hhi
    have hsync := Nat.mul_le_mul_left r.syncLow.toNat hdown
    refine absurd hlong (Nat.not_lt.mpr (Nat.le_of_mul_le_mul_right (c := L) ?_ hL))
    linarith only [hlow, hsync]
  · have hlow := Nat.mul_le_mul_left r.syncHigh.toNat hlo
    have hsync := Nat.mul_le_mul_left r.syncLow.toNat ha
    refine absurd hshort (Nat.not_lt.mpr (Nat.le_of_mul_le_mul_right (c := L) ?_ hL))
    linarith only [hlow, hsync]

/-- At the unit that a mistaken sync pair gives, no pair of a train is a bit. -/
theorem pairMatch_of_unitTooSmall {high u a : Nat} {sent : BitVec 8}
    (h : UnitTooSmall r high) (hu : r.syncHigh.toNat * u ≤ high * L) (hL : 1 ≤ L)
    (hsent : sent ∈ [r.zeroHigh, r.oneHigh, r.syncHigh]) (b : Nat) (ha : a = sent.toNat * L) :
    pairMatch r u a b = none := by
  have hlong (bit : BitVec 8) (hbit : bit ∈ [r.zeroHigh, r.oneHigh]) :
      within a (bit.toNat * u) = false := by
    refine within_eq_false.mpr (.inr (.inr (Nat.lt_of_mul_lt_mul_right (a := r.syncHigh.toNat) ?_)))
    calc 6 * (bit.toNat * u) * r.syncHigh.toNat = 6 * bit.toNat * (r.syncHigh.toNat * u) := by ring
      _ ≤ 6 * bit.toNat * (high * L) := Nat.mul_le_mul_left _ hu
      _ = 6 * bit.toNat * high * L := by ring
      _ < 5 * sent.toNat * r.syncHigh.toNat * L := Nat.mul_lt_mul_of_pos_right (h bit hbit sent hsent) hL
      _ = 5 * a * r.syncHigh.toNat := by rw [ha]; ring
  exact pairMatch_eq_none b (hlong r.zeroHigh (by simp)) (hlong r.oneHigh (by simp))

/-! ## The pairs of a train, and the frames that can be read in it -/

@[simp] theorem trainDurations_length (bits : List Bool) : (trainDurations r L bits).length = 2 * bits.length + 2 := by
  rw [trainDurations, List.length_append, length_flatMap_bitPulses]
  rfl

/-- Pair k of a train is the zero pair, the one pair or, after the bits, the sync pair. -/
theorem getElem?_trainDurations_pair (bits : List Bool) {k a b : Nat} (ha : (trainDurations r L bits)[2 * k]? = some a)
    (hb : (trainDurations r L bits)[2 * k + 1]? = some b) :
    (k < bits.length ∧ (a = r.zeroHigh.toNat * L ∧ b = r.zeroLow.toNat * L ∨
        a = r.oneHigh.toNat * L ∧ b = r.oneLow.toNat * L)) ∨
      (k = bits.length ∧ a = r.syncHigh.toNat * L ∧ b = r.syncLow.toNat * L) := by
  rcases Nat.lt_trichotomy k bits.length with hk | rfl | hk
  · have hbit := List.getElem?_eq_getElem hk
    rw [← Nat.add_zero (2 * k), getElem?_trainDurations_bit r L (by decide) hbit] at ha
    rw [getElem?_trainDurations_bit r L (by decide) hbit] at hb
    refine .inl ⟨hk, ?_⟩
    cases hx : bits[k] <;> rw [hx] at ha hb <;> cases ha <;> cases hb
    · exact .inl ⟨rfl, rfl⟩
    · exact .inr ⟨rfl, rfl⟩
  · rw [← Nat.add_zero (2 * bits.length), getElem?_trainDurations_sync] at ha
    rw [getElem?_trainDurations_sync] at hb
    cases ha
    cases hb
    exact .inr ⟨rfl, rfl, rfl⟩
  · have hlen := (List.getElem?_eq_some_iff.mp ha).1
    rw [trainDurations_length] at hlen
    omega

/-- A run of pairs that holds a bit starts with a pair that is one. -/
theorem exists_bit_of_pairsRead {u : Nat} {q : List Nat} {frame : List Bool} (hpos : 1 ≤ frame.length)
    (hlen : 2 * frame.length ≤ q.length) (hread : PairsRead r u q frame) :
    ∃ a b x, q[0]? = some a ∧ q[1]? = some b ∧ pairMatch r u a b = some x := by
  have ha : q[0]? = some q[0] := List.getElem?_eq_getElem _
  have hb : q[1]? = some q[1] := List.getElem?_eq_getElem _
  exact ⟨_, _, frame[0], ha, hb, (hread 0 _ _ hpos ha hb).trans (List.getElem?_eq_getElem _)⟩

/-- Where no pair of a sequence is a bit at a unit, no frame is read in it at that unit. -/
theorem no_frame_of_no_bit {m u : Nat} {p : List Nat} (hm : 1 ≤ m)
    (hnobit : ∀ k a b, p[2 * k]? = some a → p[2 * k + 1]? = some b → pairMatch r u a b = none) (k : Nat) :
    leadFrame m r p (2 * k) u = none ∧ followFrame m r u (p.drop (2 * k + 2)) = none := by
  simp only [Option.eq_none_iff_forall_ne_some]
  constructor
  · intro frame hframe
    obtain ⟨hpairs, hmin, -⟩ := leadFrame_eq_some.mp hframe
    obtain ⟨hlen, hread⟩ := allPairs_eq_some.mp hpairs
    obtain ⟨a, b, x, ha, hb, hx⟩ := exists_bit_of_pairsRead (hm.trans hmin) hlen.ge hread
    have hcut := List.length_take_le (2 * k) p
    rw [List.getElem?_take_of_lt (by omega)] at ha hb
    cases (hnobit 0 a b ha hb).symm.trans hx
  · intro frame hframe
    obtain ⟨left, hwalk, -, hmin, -⟩ := followFrame_eq_some.mp hframe
    obtain ⟨hlen, hread, -⟩ := followWalk_eq.mp hwalk
    obtain ⟨a, b, x, ha, hb, hx⟩ := exists_bit_of_pairsRead (hm.trans hmin) hlen hread
    rw [List.getElem?_drop] at ha hb
    cases (hnobit (k + 1) a b ha hb).symm.trans hx

/-- A bit pair of a train is no sync pair, or one at whose unit no pair of the train is a bit. -/
theorem no_bit_at_mistaken_unit (hr : Unambiguous r) (hL : 1 ≤ L) (bits : List Bool) {high low u : Nat}
    (hbit : UnlikeSync r high low ∨ UnitTooSmall r high) (hu : syncMatch r (high * L) (low * L) = some u) :
    ∀ k a b, (trainDurations r L bits)[2 * k]? = some a → (trainDurations r L bits)[2 * k + 1]? = some b →
      pairMatch r u a b = none := by
  obtain ⟨hhigh, -⟩ := multiples_pos hr.wf
  rcases hbit with hunlike | hsmall
  · rw [syncMatch_of_unlikeSync hhigh hunlike] at hu
    cases hu
  · intro k a b ha hb
    have hdown : r.syncHigh.toNat * u ≤ high * L := by
      obtain ⟨rfl, -⟩ := syncMatch_eq_some.mp hu
      exact Nat.mul_div_le _ _
    rcases getElem?_trainDurations_pair bits ha hb with ⟨-, ⟨ha, -⟩ | ⟨ha, -⟩⟩ | ⟨-, ha, -⟩
    · exact pairMatch_of_unitTooSmall hsmall hdown hL (by simp) b ha
    · exact pairMatch_of_unitTooSmall hsmall hdown hL (by simp) b ha
    · exact pairMatch_of_unitTooSmall hsmall hdown hL (by simp) b ha

/-- TryProtocol of an unambiguous record reads its own trains back: no frame is read before the sync pair, and there
the leading frame is the whole train. -/
theorem tryProtocol_trainDurations (hr : Unambiguous r) (hL : 1 ≤ L) {m : Nat} {bits : List Bool} (hm : 1 ≤ m)
    (hmin : m ≤ bits.length) (hmax : bits.length ≤ 64) :
    tryProtocol m r (trainDurations r L bits) = some (L, bits) := by
  refine tryProtocol_eq_some.mpr ⟨bits.length, frameAt_eq_some.mpr ⟨_, _, ?_, ?_, syncMatch_sync_pair hr hL, .inl ?_⟩,
    fun k hk => frameAt_eq_none.mpr fun a b u ha hb hu => ?_⟩
  · rw [List.getElem?_drop, getElem?_trainDurations_sync]
    rfl
  · rw [List.getElem?_drop, getElem?_trainDurations_sync]
    rfl
  · have hbits : (trainDurations r L bits).take (2 * bits.length) = bits.flatMap (bitPulses r L) := by
      rw [trainDurations, List.take_left' (length_flatMap_bitPulses r L bits)]
    exact leadFrame_eq_some.mpr ⟨hbits ▸ allPairs_flatMap_bitPulses hr hL bits, hmin, hmax⟩
  · rw [List.getElem?_drop] at ha hb
    rw [List.drop_drop]
    rcases getElem?_trainDurations_pair bits ha hb with ⟨-, ⟨rfl, rfl⟩ | ⟨rfl, rfl⟩⟩ | ⟨rfl, -⟩
    · exact no_frame_of_no_bit hm (no_bit_at_mistaken_unit hr hL bits hr.zero_no_sync hu) k
    · exact no_frame_of_no_bit hm (no_bit_at_mistaken_unit hr hL bits hr.one_no_sync hu) k
    · exact absurd hk (lt_irrefl _)

end

/-! ## What DECODE makes of the durations that an encode left -/

/-- No duration of a train wraps in its field (R110). -/
theorem toNat_ofNat_of_mem_trainDurations {r : Protocol} {L : BitVec 16} {bits : List Bool} {d : Nat}
    (h : d ∈ trainDurations r L.toNat bits) : (BitVec.ofNat 24 d).toNat = d := by
  have hmultiple : ∃ m : BitVec 8, d = m.toNat * L.toNat := by
    rw [trainDurations, List.mem_append, List.mem_flatMap, List.mem_pair] at h
    obtain ⟨b, -, hd⟩ | rfl | rfl := h
    · cases b <;> obtain rfl | rfl := List.mem_pair.mp hd <;> exact ⟨_, rfl⟩
    · exact ⟨_, rfl⟩
    · exact ⟨_, rfl⟩
  obtain ⟨m, rfl⟩ := hmultiple
  exact toNat_ofNat_duration m L

/-- The durations that TXBUF holds, as words for PIN, are the train's. -/
theorem map_toNat_durations (r : Protocol) (L : BitVec 16) (bits : List Bool) :
    ((pulseTrain r L.toNat bits).map fun e => e.duration.setWidth 32).map BitVec.toNat =
      trainDurations r L.toNat bits := by
  have hfits : ∀ p ∈ (trainDurations r L.toNat bits).zipIdx,
      ((BitVec.ofNat 24 p.1).setWidth 32).toNat = p.1 := by
    intro p hp
    rw [BitVec.toNat_setWidth_of_le (by decide)]
    exact toNat_ofNat_of_mem_trainDurations (List.fst_mem_of_mem_zipIdx hp)
  rw [pulseTrain, List.map_map, List.map_map]
  exact (List.map_congr_left hfits).trans (List.zipIdx_map_fst 0 _)

/-- The durations of record 1's own train, where record 1 reads a frame in them, decode to that frame. -/
theorem decodeTrain_of_record_one {m u : Nat} {r : Protocol} {rs : List Protocol} {L : BitVec 16}
    {bits frame : List Bool} (h : tryProtocol m r (trainDurations r L.toNat bits) = some (u, frame)) :
    decodeTrain m (r :: rs) ((pulseTrain r L.toNat bits).map fun e => e.duration.setWidth 32) = some
      { proto := 1#8
        delay := BitVec.ofNat 32 u
        bitlen := BitVec.ofNat 7 frame.length
        value := BitVec.ofNat 64 (bitsToNat frame)
        raw := (pulseTrain r L.toNat bits).map fun e => e.duration.setWidth 32 } :=
  decodeTrain_of_first (j := 0) (firstAt_zero.mpr (by
    rw [map_toNat_durations]
    exact h))

/-- DECODE of durations fed to PIN, where one of the records fits. -/
theorem execDecode_of_fed {s : State} {ds : List (BitVec 32)} {x : RxResult}
    (h : decodeTrain s.params.minBits s.rom ds = some x) :
    execDecode { s with pin := ds, povf := false } =
      .next { s with pin := [], povf := false, rx := some x, err := .ok } :=
  execDecode_of_fit (s := { s with pin := ds, povf := false }) rfl h

theorem activeIs_of_record_one {s : State} {r : Protocol} {rs : List Protocol} (hrom : s.rom = r :: rs)
    (hproto : s.actProto = 1#8) : ActiveIs s r := by
  rw [ActiveIs, hproto, hrom]
  exact ⟨by decide, rfl⟩

/-! ## The fixture (R101) -/

/-- The tri-state digits of the fixture's string. -/
def fixtureDigits : List Digit :=
  [.zero, .zero, .zero, .zero, .zero, .floating, .floating, .floating, .zero, .floating, .zero, .floating]

theorem fixtureArg_eq : fixtureArg = fixtureDigits.map digitChar := rfl

theorem dibits_fixtureDigits : dibits fixtureDigits = natToBits 5393 24 := by decide

/-- Where the one shape is the zero shape no pair is a one, since the zero shape is tested first (R134). -/
theorem pairMatch_ne_true {r : Protocol} (hhigh : r.oneHigh = r.zeroHigh) (hlow : r.oneLow = r.zeroLow)
    (u a b : Nat) : pairMatch r u a b ≠ some true := by
  rw [pairMatch, hhigh, hlow]
  split_ifs <;> simp

/-- A run of pairs that holds a one has a pair that is a one. -/
theorem exists_one_of_pairsRead {r : Protocol} {u i : Nat} {q : List Nat} {bits : List Bool}
    (hlen : 2 * bits.length ≤ q.length) (hread : PairsRead r u q bits) (hi : bits[i]? = some true) :
    ∃ a b, pairMatch r u a b = some true := by
  have hlt : i < bits.length := (List.getElem?_eq_some_iff.mp hi).1
  exact ⟨q[2 * i], q[2 * i + 1],
    (hread i _ _ hlt (List.getElem?_eq_getElem _) (List.getElem?_eq_getElem _)).trans hi⟩

/-- A frame that TryProtocol reads is a run of pairs somewhere in the sequence. -/
theorem exists_pairsRead_of_tryProtocol {m u : Nat} {r : Protocol} {p : List Nat} {bits : List Bool}
    (h : tryProtocol m r p = some (u, bits)) : ∃ q, 2 * bits.length ≤ q.length ∧ PairsRead r u q bits := by
  obtain ⟨k, hk, -⟩ := tryProtocol_eq_some.mp h
  obtain ⟨-, -, -, -, -, hlead | ⟨-, hfollow⟩⟩ := frameAt_eq_some.mp hk
  · obtain ⟨hpairs, -⟩ := leadFrame_eq_some.mp hlead
    obtain ⟨hlen, hread⟩ := allPairs_eq_some.mp hpairs
    exact ⟨_, hlen.ge, hread⟩
  · obtain ⟨left, hwalk, -⟩ := followFrame_eq_some.mp hfollow
    obtain ⟨hlen, hread, -⟩ := followWalk_eq.mp hwalk
    exact ⟨_, hlen, hread⟩

/-- A record that reads the fixture back, which has ones, has a one shape of its own. -/
theorem one_pair_of_fixture {m u : Nat} {r : Protocol} {p : List Nat}
    (h : tryProtocol m r p = some (u, natToBits 5393 24)) :
    ¬ (r.oneHigh = r.zeroHigh ∧ r.oneLow = r.zeroLow) := by
  rintro ⟨hhigh, hlow⟩
  obtain ⟨q, hlen, hread⟩ := exists_pairsRead_of_tryProtocol h
  obtain ⟨a, b, hone⟩ := exists_one_of_pairsRead (i := 23) hlen hread (by decide)
  exact pairMatch_ne_true hhigh hlow u a b hone

/-! ## Records of the same shapes, and the first fit (R140) -/

section
variable {r q : Protocol} (h : sameShapes r q)
include h

theorem pairMatch_of_sameShapes : pairMatch r = pairMatch q := by
  obtain ⟨-, -, hzh, hzl, hoh, hol⟩ := h
  funext u a b
  simp only [pairMatch, hzh, hzl, hoh, hol]

theorem syncMatch_of_sameShapes : syncMatch r = syncMatch q := by
  obtain ⟨hsh, hsl, -⟩ := h
  funext a b
  simp only [syncMatch, hsh, hsl]

theorem pairsRead_of_sameShapes (u : Nat) (p : List Nat) (bits : List Bool) :
    PairsRead r u p bits ↔ PairsRead q u p bits := by
  rw [PairsRead, PairsRead, pairMatch_of_sameShapes h]

theorem leadFrame_of_sameShapes (m : Nat) (p : List Nat) (s u : Nat) : leadFrame m r p s u = leadFrame m q p s u := by
  ext bits
  simp only [leadFrame_eq_some, allPairs_eq_some, pairsRead_of_sameShapes h]

theorem followFrame_of_sameShapes (m u : Nat) (p : List Nat) : followFrame m r u p = followFrame m q u p := by
  have hstop (left : List Nat) : stoppedOk r left = stoppedOk q left := by
    match left with
    | [] => rfl
    | [_] => rfl
    | a :: b :: rest => rw [stoppedOk, stoppedOk, syncMatch_of_sameShapes h]
  ext bits
  simp only [followFrame_eq_some, followWalk_eq, pairsRead_of_sameShapes h, NoBitFirst, pairMatch_of_sameShapes h,
    hstop]

/-- The decoder sees of a record its six multiples alone. -/
theorem tryProtocol_of_sameShapes (m : Nat) (p : List Nat) : tryProtocol m r p = tryProtocol m q p := by
  have hframe (s : Nat) (rest : List Nat) : frameAt m r p s rest = frameAt m q p s rest := by
    match rest with
    | [] => rfl
    | [_] => rfl
    | a :: b :: rest =>
      simp only [frameAt, syncMatch_of_sameShapes h, leadFrame_of_sameShapes h, followFrame_of_sameShapes h]
  ext x
  simp only [tryProtocol_eq_some, hframe]

end

/-- A first fit is the least id whose record answers. -/
theorem firstFit_eq_some {m id : Nat} {p : List Nat} {rs : List Protocol} {i : Nat} {x : Nat × List Bool}
    (h : firstFit m p id rs = some (i, x)) :
    ∃ j, i = id + j ∧ FirstAt (fun i => rs[i]?.bind fun r => tryProtocol m r p) j x := by
  have hfirst : ∃ j y, FirstAt (fun i => rs[i]?.bind fun r => tryProtocol m r p) j y := by
    induction rs generalizing id with
    | nil => cases h
    | cons r rs ih =>
      cases hr : tryProtocol m r p with
      | some y => exact ⟨0, y, firstAt_zero.mpr hr⟩
      | none =>
        simp only [firstFit, hr] at h
        obtain ⟨j, y, hy⟩ := ih h
        exact ⟨j + 1, y, firstAt_succ.mpr ⟨hr, hy⟩⟩
  obtain ⟨j, y, hy⟩ := hfirst
  obtain ⟨rfl, rfl⟩ := Prod.mk.inj (Option.some.inj (h.symm.trans (firstFit_of_first hy)))
  exact ⟨j, rfl, hy⟩

/-- What DECODE publishes is the frame of the first record that fits. -/
theorem decodeTrain_eq_some {m : Nat} {rom : List Protocol} {raw : List (BitVec 32)} {x : RxResult}
    (h : decodeTrain m rom raw = some x) :
    ∃ j u bits, FirstAt (fun i => rom[i]?.bind fun r => tryProtocol m r (raw.map BitVec.toNat)) j (u, bits) ∧
      x = { proto := BitVec.ofNat 8 (j + 1)
            delay := BitVec.ofNat 32 u
            bitlen := BitVec.ofNat 7 bits.length
            value := BitVec.ofNat 64 (bitsToNat bits)
            raw := raw } := by
  cases hfit : firstFit m (raw.map BitVec.toNat) 1 rom with
  | none => simp [decodeTrain, hfit] at h
  | some fit =>
    obtain ⟨i, u, bits⟩ := fit
    obtain ⟨j, rfl, hfirst⟩ := firstFit_eq_some hfit
    exact ⟨j, u, bits, hfirst, (Option.some.inj ((decodeTrain_of_first hfirst).symm.trans h)).symm⟩

/-- The record that fits first is in the table. -/
theorem exists_record_of_firstAt {f : Protocol → Option (Nat × List Bool)} {rom : List Protocol} {j : Nat}
    {x : Nat × List Bool} (h : FirstAt (fun i => rom[i]?.bind f) j x) : ∃ r, rom[j]? = some r ∧ f r = some x :=
  Option.bind_eq_some_iff.mp h.1

/-- Where a record before j has the shapes of record j, the first fit is not record j. -/
theorem ne_of_sameShapes {m i j k : Nat} {rom : List Protocol} {p : List Nat} {ri rj : Protocol}
    {x : Nat × List Bool} (hij : i < j) (hi : rom[i]? = some ri) (hj : rom[j]? = some rj) (h : sameShapes ri rj)
    (hfirst : FirstAt (fun i => rom[i]?.bind fun r => tryProtocol m r p) k x) : k ≠ j := by
  rintro rfl
  obtain ⟨hfit, hbefore⟩ := hfirst
  have hnone := hbefore i hij
  simp only [hi, hj, Option.bind_some] at hnone hfit
  rw [tryProtocol_of_sameShapes h, hfit] at hnone
  cases hnone

/-- Records 11 and 12 of the default table have the same six multiples. -/
theorem exists_sameShapes_default : ∃ ri rj, defaultProtoTable[10]? = some ri ∧ defaultProtoTable[11]? = some rj ∧
    sameShapes ri rj :=
  ⟨_, _, rfl, rfl, rfl, rfl, rfl, rfl, rfl, rfl⟩

/-- DECODE completes in every state (R158). -/
theorem execDecode_completes (s : State) : ∃ t, execDecode s = .next t := by
  cases hovf : s.povf with
  | true => exact ⟨_, execDecode_of_povf hovf⟩
  | false =>
    cases hfit : decodeTrain s.params.minBits s.rom s.pin with
    | some x => exact ⟨_, execDecode_of_fit hovf hfit⟩
    | none => exact ⟨_, execDecode_of_no_fit hovf hfit⟩

/-- In a table of at most 255 records, of two of the same shapes DECODE never publishes the later. -/
theorem execDecode_skips_later_record {s : State} {i j : Nat} {ri rj : Protocol} (hrom : s.rom.length ≤ 255)
    (hij : i < j) (hi : s.rom[i]? = some ri) (hj : s.rom[j]? = some rj) (h : sameShapes ri rj) :
    ∃ t, execDecode s = .next t ∧ (t.err = .ok → ∃ x, t.rx = some x ∧ x.proto.toNat ≠ j + 1) := by
  obtain ⟨t, ht⟩ := execDecode_completes s
  refine ⟨t, ht, fun hok => ?_⟩
  obtain ⟨e, rfl | rfl, rfl⟩ | ⟨x, hx, -, rfl⟩ := execDecode_cases ht
  · cases hok
  · cases hok
  · obtain ⟨k, u, bits, hfirst, rfl⟩ := decodeTrain_eq_some hx
    obtain ⟨r, hr, -⟩ := exists_record_of_firstAt hfirst
    have hk : k < s.rom.length := (List.getElem?_eq_some_iff.mp hr).1
    have hne := ne_of_sameShapes hij hi hj h hfirst
    refine ⟨_, rfl, ?_⟩
    rw [BitVec.toNat_ofNat, Nat.mod_eq_of_lt (by omega)]
    omega

/-! ## The obligations -/

/-- Settles O40: every record of the default table is unambiguous. -/
theorem defaultTrainsRoundTrip : Obligations.DefaultTrainsRoundTrip :=
  fun r _ _ _ hr hL _ hm hmin hmax => tryProtocol_trainDurations (unambiguous_default r hr) hL hm hmin hmax

/-- Settles O41: SENDVAL leaves the train of VAL's bits, and record 1, tried first, reads it back. -/
theorem protocolOneLoopsBack : Obligations.ProtocolOneLoopsBack := by
  intro s r rs bits len hr hrom hproto hplen hm hmin hmax hlen hval
  have hne : bits ≠ [] := List.ne_nil_of_length_pos (hm.trans hmin)
  have hsend := execSendval_of_bits hne hlen.symm hmax (hval.trans (toNat_val s).symm)
    (activeIs_of_record_one hrom hproto)
  refine ⟨_, hsend, rfl, ?_⟩
  have hround : tryProtocol s.params.minBits r (trainDurations r s.actPlen.toNat bits) =
      some (s.actPlen.toNat, bits) :=
    tryProtocol_trainDurations (unambiguous_default r (List.mem_of_mem_head? hr)) hplen hm hmin hmax
  have hfit := decodeTrain_of_record_one (rs := rs) hround
  rw [← hrom, hval, ← hlen, BitVec.ofNat_toNat, BitVec.ofNat_toNat, BitVec.setWidth_eq] at hfit
  exact execDecode_of_fed (s := (s.setTxbuf (pulseTrain r s.actPlen.toNat bits)).setErr .ok) hfit

/-- Settles O58: record 1's values are part of `Config.wf`, and so is that it reads the fixture back. -/
theorem wellFormedBuildsKeepTheFixture : Obligations.WellFormedBuildsKeepTheFixture := by
  refine ⟨fun c hwf => ?_, fun s hwf hmin hproto hplen hovf harg => ?_⟩
  · obtain ⟨r, rs, htable, hr, u, hu⟩ := Config.fixture_of_wf hwf
    have hone := one_pair_of_fixture hu
    refine ⟨r, rs, htable, ?_⟩
    rw [hr] at hone ⊢
    exact ⟨rfl, rfl, rfl, rfl, rfl, rfl, hone⟩
  · obtain ⟨r, rs, hrom, -, u, hu⟩ := Config.fixture_of_wf hwf
    have hsend := execSendts_of_digits (ds := fixtureDigits) (by decide) (by decide) (harg.trans fixtureArg_eq) hovf
      (activeIs_of_record_one hrom hproto)
    have h350 : s.actPlen.toNat = 350 := congrArg BitVec.toNat hplen
    rw [dibits_fixtureDigits] at hsend
    rw [State.cfg_toParams, Nat.min_eq_left hmin, ← h350] at hu
    have hfit := decodeTrain_of_record_one (rs := rs) hu
    rw [← hrom] at hfit
    have hdecode := execDecode_of_fed
      (s := (s.clearArg.setTxbuf (pulseTrain r s.actPlen.toNat (natToBits 5393 24))).setErr .ok) hfit
    exact ⟨_, hsend, rfl, pulseTrain_length _ _ _, _, _, hdecode, rfl, rfl, rfl, rfl, rfl⟩

/-- Settles O39: the two records answer the same frames, so the first fit is never the later one; in the default table
records 11 and 12 are such a pair. -/
theorem lowerIdWinsATie : Obligations.LowerIdWinsATie := by
  refine ⟨fun s i j ri rj hwf hij hi hj h => ?_, fun s hrom => ?_⟩
  · obtain ⟨-, -, hlen, -⟩ := Config.ranges_of_wf hwf
    exact execDecode_skips_later_record hlen hij hi hj h
  · obtain ⟨ri, rj, hi, hj, h⟩ := exists_sameShapes_default
    rw [← hrom] at hi hj
    obtain ⟨t, ht, hskip⟩ := execDecode_skips_later_record (by rw [hrom]; decide) (by decide) hi hj h
    refine ⟨t, ht, fun hok => ?_⟩
    obtain ⟨x, hx, hne⟩ := hskip hok
    exact ⟨x, hx, fun h12 => hne (congrArg BitVec.toNat h12)⟩

/-- Settles O34: the two tests as they are defined, and a zero duration, which is within tolerance of nothing. -/
theorem syncAndPairTests : Obligations.SyncAndPairTests := by
  refine ⟨fun r a b u => syncMatch_eq_some, fun r u a b => ⟨pairMatch_eq_some_false, pairMatch_eq_some_true⟩,
    fun r u d => ⟨?_, ?_, ?_, ?_⟩⟩
  · simp [pairMatch]
  · simp [pairMatch]
  · simp [syncMatch]
  · simp [syncMatch]

end Sys2Proof.Machine
end

section
/-! PROOFS. The encoder and the decoder of instructions are inverse to each other (spec 30_encoding, 20_memory). -/

namespace Sys2Proof

open Sys2Proof.Machine

/-! ## Fields of a word (R88, R89) -/

@[simp] theorem extractLsb'_place {n lo : Nat} (v : BitVec n) (h : lo + n ≤ 32) :
    (place v lo).extractLsb' lo n = v := by
  apply BitVec.eq_of_getLsbD_eq
  intro i hi
  simp [hi, show lo + i < 32 by omega]

@[simp] theorem extractLsb'_place_of_disjoint {n lo start len : Nat} (v : BitVec n)
    (h : start + len ≤ lo ∨ lo + n ≤ start) : (place v lo).extractLsb' start len = 0#len := by
  apply BitVec.eq_of_getLsbD_eq
  intro i hi
  have hout : start + i < lo ∨ n ≤ start + i - lo := by omega
  rcases hout with hbelow | habove
  · simp [hbelow]
  · simp [BitVec.getLsbD_of_ge v _ habove]

@[simp] theorem extractLsb'_placeBit_of_disjoint {lo start len : Nat} (b : Bool)
    (h : start + len ≤ lo ∨ lo + 1 ≤ start) : (placeBit b lo).extractLsb' start len = 0#len :=
  extractLsb'_place_of_disjoint _ h

/-- A field put back in its place is the word's own bits there. -/
theorem place_extractLsb' (w : Word) {lo n : Nat} :
    place (w.extractLsb' lo n) lo = w &&& place (BitVec.allOnes n) lo := by
  apply BitVec.eq_of_getLsbD_eq
  intro i hi
  by_cases hlo : i < lo
  · simp [hi, hlo]
  · by_cases hn : i - lo < n
    · simp [hi, hlo, hn, Nat.add_sub_cancel' (Nat.not_lt.mp hlo)]
    · simp [hi, hlo, hn]

theorem placeBit_getLsbD (w : Word) {lo : Nat} : placeBit (w.getLsbD lo) lo = w &&& placeBit true lo := by
  apply BitVec.eq_of_getLsbD_eq
  intro i hi
  by_cases hlo : i = lo
  · simp [hlo, Bool.and_comm]
  · simp [hi, hlo]

/-! ## The rows of R90, and the encoder -/

/-- A word that matches a row is the row's pattern and, where the mask has no bit, the word's own bits. -/
theorem eq_or_of_match {w mask pattern : Word} (h : w &&& mask = pattern) : pattern ||| (w &&& ~~~mask) = w := by
  rw [← h, ← BitVec.and_or_distrib_left, BitVec.or_not_self, BitVec.and_allOnes]

theorem pattern_and_mask : ∀ row ∈ cmdRows, row.pattern &&& row.mask = row.pattern := by
  decide

/-- A row's command has the row's pattern and, where the mask has no bit, the bits of the word it was built from. -/
theorem encodeCmd_build :
    ∀ row ∈ cmdRows, ∀ w : Word, encodeCmd (row.build w) = some (row.pattern ||| (w &&& ~~~row.mask)) := by
  have hfixed (w pattern : Word) : pattern = pattern ||| (w &&& ~~~0xFFFFFFFF#32) := by simp
  simp only [cmdRows, List.forall_mem_cons, encodeCmd, Option.some.injEq, place_extractLsb', placeBit_getLsbD,
    ← BitVec.and_or_distrib_left]
  refine ⟨fun w => hfixed w _, fun w => BitVec.or_comm _ _, fun w => BitVec.or_comm _ _, fun w => hfixed w _,
    fun w => BitVec.or_comm _ _, fun w => hfixed w _, fun w => BitVec.or_comm _ _, fun w => BitVec.or_comm _ _,
    fun w => BitVec.or_comm _ _, fun w => hfixed w _, fun w => hfixed w _, fun w => hfixed w _,
    fun w => hfixed w _, by simp⟩

/-- Some row reads every operand of a command back from the command's word. -/
theorem exists_row_of_encodeCmd {i : Instr} {w : Word} (h : encodeCmd i = some w) :
    ∃ row ∈ cmdRows, row.build w = i := by
  have hrow {row : CmdRow} (k : Nat) (hk : cmdRows[k]? = some row) (hbuild : row.build w = i) :
      ∃ row ∈ cmdRows, row.build w = i := ⟨row, List.mem_of_getElem? hk, hbuild⟩
  cases i with
  | nop => exact hrow 0 rfl rfl
  | setproto id plen =>
    cases h
    exact hrow 1 rfl (by simp [wordN, BitVec.extractLsb'_or])
  | lookup id =>
    cases h
    exact hrow 2 rfl (by simp [wordN, BitVec.extractLsb'_or])
  | sendts => exact hrow 3 rfl rfl
  | sendval len =>
    cases h
    exact hrow 4 rfl (by simp [wordN, BitVec.extractLsb'_or])
  | sendbin => exact hrow 5 rfl rfl
  | swslide on glen =>
    cases h
    exact hrow 6 rfl (by simp [wordN, BitVec.extractLsb'_or])
  | swfamdev on chr dev =>
    cases h
    exact hrow 7 rfl (by simp [wordN, BitVec.extractLsb'_or])
  | swfamgrp on chr grp dev =>
    cases h
    exact hrow 8 rfl (by simp [wordN, BitVec.extractLsb'_or])
  | decode => exact hrow 9 rfl rfl
  | clrpin => exact hrow 10 rfl rfl
  | resetrx => exact hrow 11 rfl rfl
  | clrarg => exact hrow 12 rfl rfl
  | wrPulseIn | wrArgChar | busRead | busWrite => cases h

/-- Every word that matches a row is the word of one command, and of that command alone (R90). -/
theorem decodeCmd_eq_some_iff {w : Word} {i : Instr} : decodeCmd w = some i ↔ encodeCmd i = some w := by
  constructor
  · intro h
    obtain ⟨row, hrow, hmatch, rfl⟩ := decodeRows_some h
    rw [encodeCmd_build row hrow, eq_or_of_match hmatch]
  · intro h
    obtain ⟨row, hrow, rfl⟩ := exists_row_of_encodeCmd h
    rw [encodeCmd_build row hrow, Option.some.injEq] at h
    refine decodeRows_of_mem ?_ (by decide) (by decide) hrow
    rw [← h, BitVec.and_or_distrib_right, BitVec.and_assoc, BitVec.not_and_self]
    simp [pattern_and_mask row hrow]

/-! ## Accesses (R68, R71, R73, R86) -/

theorem encode_of_encodeCmd {i : Instr} {w : Word} (h : encodeCmd i = some w) (base : Nat) :
    encode base i = writeAccess base .cmd w := by
  cases i with
  | wrPulseIn | wrArgChar | busRead | busWrite => cases h
  | _ => simp only [encode, h, Option.getD_some]

theorem wellFormed_of_encodeCmd {i : Instr} {w : Word} (h : encodeCmd i = some w) : i.wellFormed = true := by
  cases i with
  | busWrite => cases h
  | _ => rfl

theorem decodeWrite_cmd {w : Word} {i : Instr} (h : decodeCmd w = some i) : decodeWrite .cmd w = .instr i := by
  simp only [decodeWrite, h]

/-- A write of a register that carries no instruction of its own is a BUS_WRITE. -/
theorem decodeWrite_of_wellFormed {r : Reg} {w : Word} (h : (Instr.busWrite r w).wellFormed = true) :
    decodeWrite r w = .instr (.busWrite r w) := by
  cases r with
  | cmd | argChar | pulseIn => simp [Instr.wellFormed] at h
  | _ => rfl

/-- What a write decodes to is well formed, and the write is its access. -/
theorem encode_of_decodeWrite {r : Reg} {w : Word} {i : Instr} (h : decodeWrite r w = .instr i) (base : Nat) :
    i.wellFormed = true ∧ encode base i = writeAccess base r w := by
  cases r with
  | cmd =>
    rw [decodeWrite] at h
    split at h
    · next hcmd =>
      cases h
      have henc := decodeCmd_eq_some_iff.mp hcmd
      exact ⟨wellFormed_of_encodeCmd henc, encode_of_encodeCmd henc base⟩
    · cases h
  | _ =>
    cases h
    exact ⟨rfl, rfl⟩

theorem decode_encode (base : Nat) {i : Instr} (hwf : i.wellFormed = true) :
    decode base (encode base i) = .instr i := by
  cases h : encodeCmd i with
  | some w => rw [encode_of_encodeCmd h, decode_writeAccess, decodeWrite_cmd (decodeCmd_eq_some_iff.mpr h)]
  | none =>
    cases i with
    | wrPulseIn w => exact decode_writeAccess base .pulseIn w
    | wrArgChar w => exact decode_writeAccess base .argChar w
    | busRead r => exact decode_readAccess base r
    | busWrite r w => exact (decode_writeAccess base r w).trans (decodeWrite_of_wellFormed hwf)
    | _ => cases h

theorem encode_decode {base : Nat} {a : Access} {i : Instr} (h : decode base a = .instr i) :
    i.wellFormed = true ∧ encode base i = a := by
  rw [decode] at h
  split at h
  · cases h
  · next r hloc =>
    obtain ⟨hwidth, haddr⟩ := locate_ok hloc
    cases a with
    | read addr bytes =>
      cases h
      exact ⟨rfl, by rw [encode, readAccess, ← haddr, ← hwidth]; rfl⟩
    | write addr lanes =>
      cases hw : ofLanes lanes with
      | none => simp [hw] at h
      | some w =>
        simp only [hw] at h
        obtain ⟨hwf, henc⟩ := encode_of_decodeWrite h base
        exact ⟨hwf, by rw [henc, writeAccess, ← haddr, ← lanes_of_ofLanes hw]; rfl⟩

/-! ## The match words of R90 -/

theorem commandWords_eq : commandWords = cmdRows.map fun row => (row.pattern, row.mask) := rfl

/-- Where no two elements of a list pass a test together, at most one passes. -/
theorem length_filter_le_one {α : Type} {p : α → Bool} {l : List α}
    (h : l.Pairwise fun a b => ¬ (p a = true ∧ p b = true)) : (l.filter p).length ≤ 1 := by
  match hl : l.filter p with
  | [] => simp
  | [_] => simp
  | a :: b :: rest =>
    have ha : a ∈ l.filter p := by simp [hl]
    have hb : b ∈ l.filter p := by simp [hl]
    have hab := List.rel_of_pairwise_cons (hl ▸ h.filter p) List.mem_cons_self
    exact absurd ⟨(List.mem_filter.mp ha).2, (List.mem_filter.mp hb).2⟩ hab

/-- No word matches two rows, since a row's mask covers the opcode and the opcodes differ (R87). -/
theorem commandWords_disjoint (w : Word) :
    commandWords.Pairwise fun a b => ¬ ((w &&& a.2 == a.1) = true ∧ (w &&& b.2 == b.1) = true) := by
  have hmask : ∀ row ∈ cmdRows, row.mask &&& 0xFF#32 = 0xFF#32 := by decide
  have hopcodes : cmdRows.Pairwise fun a b => a.pattern &&& 0xFF#32 ≠ b.pattern &&& 0xFF#32 := by decide
  rw [commandWords_eq, List.pairwise_map]
  refine hopcodes.imp_of_mem fun ha hb hne => ?_
  rintro ⟨hwa, hwb⟩
  exact hne ((opcode_of_match (beq_iff_eq.mp hwa) (hmask _ ha)).symm.trans
    (opcode_of_match (beq_iff_eq.mp hwb) (hmask _ hb)))

theorem decodeCmd_isSome_iff {w : Word} :
    (decodeCmd w).isSome = true ↔ ∃ row ∈ commandWords, w &&& row.2 = row.1 := by
  rw [← not_iff_not, Bool.not_eq_true, Option.isSome_eq_false_iff, Option.isNone_iff_eq_none, decodeCmd,
    decodeRows_none, commandWords_eq]
  simp

/-! ## The obligations -/

/-- Settles O10: a command's word is the one word that decodes to it, and every other instruction is its own register's
access. -/
theorem decodeInvertsEncode : Obligations.DecodeInvertsEncode :=
  fun base _ hwf => decode_encode base hwf

/-- Settles O11: the access is taken apart into register and word, both of which the encoder puts back. -/
theorem encodeInvertsDecode : Obligations.EncodeInvertsDecode :=
  fun _ _ _ h => encode_decode h

/-- Settles O9: the rows' opcodes differ. -/
theorem commandRowsAreDisjoint : Obligations.CommandRowsAreDisjoint :=
  fun w => ⟨length_filter_le_one (commandWords_disjoint w), decodeCmd_isSome_iff⟩

/-- Settles O12: each word and each access is the encoding of what it decodes to. -/
theorem writtenOutWordsDecode : Obligations.WrittenOutWordsDecode :=
  ⟨decodeCmd_eq_some_iff.mpr rfl, decodeCmd_eq_some_iff.mpr rfl, decodeCmd_eq_some_iff.mpr rfl,
    decodeCmd_eq_some_iff.mpr rfl, decodeCmd_eq_some_iff.mpr rfl, decodeCmd_eq_some_iff.mpr rfl,
    decodeCmd_eq_some_iff.mpr rfl, decodeCmd_eq_some_iff.mpr rfl, decode_encode 0x1000 (i := .busRead .status) rfl,
    decode_encode 0x1000 (i := .busWrite .txIdx 0xABCD0003#32) rfl,
    decode_encode 0x1000 (i := .wrPulseIn 350#32) rfl⟩

end Sys2Proof
end

section
/-! PROOFS. The bus port and the reset input: what a step does with each kind of event (spec 20_memory R73 to R80,
70_reset R167 to R169), and the platform of several blocks (60_exceptions R165). -/

namespace Sys2Proof.Machine

/-! ## A step, by its event -/

section
variable {s : State} {a : Access} {rest : List BusEvent}

theorem step_of_idle (h : s.inbox = []) : step s = .next s := by
  simp only [step, fetch, h]

theorem step_of_reset {abandoned : Option Access} (h : s.inbox = .reset abandoned :: rest) :
    step s = .next (hardReset s rest) := by
  simp only [step, fetch, h]

theorem step_of_instr {i : Instr} (h : s.inbox = .access a :: rest) (hd : decode s.params.base a = .instr i) :
    step s = exec i (s.accept rest) := by
  simp only [step, fetch, h, hd]

theorem step_of_reject {e : Reject} (h : s.inbox = .access a :: rest) (hd : decode s.params.base a = .reject e) :
    step s = serveReject e a (s.accept rest) := by
  simp only [step, fetch, h, hd]

/-- The step that serves an instruction's own access runs the instruction. -/
theorem step_of_encode {i : Instr} (h : s.inbox = .access (encode s.params.base i) :: rest)
    (hwf : i.wellFormed = true) : step s = exec i (s.accept rest) :=
  step_of_instr h (decode_encode s.params.base hwf)

end

/-! ## Accesses that reach no register (R73, R74, R77) -/

theorem decode_of_locate_error {base : Nat} {a : Access} {e : Reject} (h : locate base a.addr a.width = .error e) :
    decode base a = .reject e := by
  simp only [decode, h]

theorem locate_of_outside {base addr : Nat} (width : Nat) (h : addr < base ∨ base + 128 ≤ addr) :
    locate base addr width = .error .outsideWindow := by
  rw [locate, if_pos h]

/-- In the window the width is tested before the offset. -/
theorem locate_of_refused {base addr width : Nat} (hlo : base ≤ addr) (hhi : addr < base + 128)
    (h : width ≠ 4 ∨ (addr - base) % 4 ≠ 0) :
    locate base addr width = .error .badWidth ∨ locate base addr width = .error .misaligned := by
  have hin : ¬ (addr < base ∨ base + 128 ≤ addr) := by omega
  rw [locate, if_neg hin]
  by_cases hwidth : width = 4
  · rw [if_neg (not_not.mpr hwidth), if_pos (h.resolve_left (not_not.mpr hwidth))]
    exact .inr rfl
  · rw [if_pos hwidth]
    exact .inl rfl

/-- Whichever of the two tests refuses an access of the window, the port answers with a bus error. -/
theorem step_of_refused {s : State} {a : Access} {rest : List BusEvent} (hin : s.inbox = .access a :: rest)
    (hlo : s.params.base ≤ a.addr) (hhi : a.addr < s.params.base + 128)
    (hbad : a.width ≠ 4 ∨ (a.addr - s.params.base) % 4 ≠ 0) :
    ∃ why, step s = .fault (.busError why (errorData a)) := by
  rcases locate_of_refused hlo hhi hbad with hwidth | halign
  · exact ⟨.badWidth, step_of_reject hin (decode_of_locate_error hwidth)⟩
  · exact ⟨.misaligned, step_of_reject hin (decode_of_locate_error halign)⟩

/-- An aligned 32-bit access of the window reaches a register. -/
theorem locate_of_aligned {base : Nat} {a : Access} (h : Aligned32 base a) :
    ∃ r, locate base a.addr a.width = .ok r := by
  obtain ⟨hlo, hhi, hwidth, hoffset⟩ := h
  have hin : ¬ (a.addr < base ∨ base + 128 ≤ a.addr) := by omega
  have hk : (a.addr - base) / 4 < regMap.length := by
    have hlen : regMap.length = 32 := rfl
    omega
  refine ⟨regMap[(a.addr - base) / 4], ?_⟩
  rw [locate, if_neg hin, if_neg (not_not.mpr hwidth), if_neg (not_not.mpr hoffset), List.getElem?_eq_getElem hk]

/-- The host's accesses are instructions, but for the CMD writes of words that are no command (R73, R91). -/
theorem decode_of_aligned {base : Nat} {a : Access} (h : Aligned32 base a) :
    (∃ i, decode base a = .instr i) ∨ decode base a = .reject .illegalCommand := by
  obtain ⟨r, hr⟩ := locate_of_aligned h
  cases a with
  | read addr bytes =>
    exact .inl ⟨.busRead r, by simp only [decode, hr]⟩
  | write addr lanes =>
    obtain ⟨w, hw⟩ := ofLanes_isSome_of_length h.width
    have hwrite : decode base (.write addr lanes) = decodeWrite r w := by simp only [decode, hr, hw]
    rw [hwrite]
    cases r with
    | cmd =>
      cases hcmd : decodeCmd w with
      | some i => exact .inl ⟨i, decodeWrite_cmd hcmd⟩
      | none => exact .inr (by simp only [decodeWrite, hcmd])
    | _ => exact .inl ⟨_, rfl⟩

/-- A word that matches no row is an illegal command (R91). -/
theorem decodeCmd_eq_none {w : Word} (h : ∀ row ∈ commandWords, w &&& row.2 ≠ row.1) : decodeCmd w = none := by
  rw [← Option.not_isSome_iff_eq_none, decodeCmd_isSome_iff]
  rintro ⟨row, hrow, hmatch⟩
  exact h row hrow hmatch

theorem decode_illegal_cmd (base : Nat) {w : Word} (h : decodeCmd w = none) :
    decode base (writeAccess base .cmd w) = .reject .illegalCommand := by
  rw [decode_writeAccess]
  simp only [decodeWrite, h]

theorem activeRecord_eq_none {s : State} (h : s.rom.length < s.actProto.toNat) : s.activeRecord = none :=
  romAt_eq_none.mpr (.inr h)

/-! ## The obligations -/

/-- Settles O2: the state reset leaves is the build's own, with the events behind it. -/
theorem hardwareResetFromAnyState : Obligations.HardwareResetFromAnyState :=
  fun _ _ _ h => step_of_reset h

/-- Settles O6: only well-formed instructions have an access. -/
theorem stepRunsTheDecodedInstruction : Obligations.StepRunsTheDecodedInstruction :=
  fun _ _ _ _ hin hd => ⟨(encode_decode hd).1, step_of_instr hin hd⟩

/-- Settles O7. -/
theorem idleBlockStartsNothing : Obligations.IdleBlockStartsNothing :=
  fun _ h => step_of_idle h

/-- Settles O8: the decoder takes only the words that match a row, and a CMD write of another fails. -/
theorem illegalCommandOnlySetsErr : Obligations.IllegalCommandOnlySetsErr := by
  intro s w rest hnone hin
  have hd := decode_illegal_cmd s.params.base (decodeCmd_eq_none hnone)
  exact ⟨(step_of_reject hin hd).trans (fail_eq _ _), rfl⟩

/-- Settles O13: a bus error carries the word 0 for a read and nothing for a write. -/
theorem refusedAccessIsABusError : Obligations.RefusedAccessIsABusError := by
  intro s a rest hin hlo hhi hbad
  obtain ⟨why, hstep⟩ := step_of_refused hin hlo hhi hbad
  exact ⟨why, hstep.trans (by cases a <;> rfl)⟩

/-- Settles O14: the port's range test, the arm of CMD, and the lookup of a record that is not there. -/
theorem modelStopsOfItsOwn : Obligations.ModelStopsOfItsOwn := by
  refine ⟨fun s a rest hin hout => ?_, fun s w => rfl, fun s b hproto => ?_⟩
  · rw [step_of_reject hin (decode_of_locate_error (locate_of_outside a.width hout)), serveReject]
  · simp only [encodeBits, activeRecord_eq_none hproto]

/-- Settles O18: `cfg` is ROM and the other parameters together. -/
theorem configurationNeverChanges : Obligations.ConfigurationNeverChanges := by
  have hparts {s t : State} (h : t.cfg = s.cfg) : t.rom = s.rom ∧ t.params = s.params :=
    ⟨congrArg Config.protoTable h, congrArg Config.toParams h⟩
  exact ⟨fun _ _ h => hparts (step_cfg h), fun _ _ _ h => hparts (runSteps_cfg h)⟩

/-- Settles O57: the platform's step writes one place of the list. -/
theorem instancesShareNoState : Obligations.InstancesShareNoState := by
  intro p k s t hs hstep
  have hk : k < p.instances.length := (List.getElem?_eq_some_iff.mp hs).1
  refine ⟨⟨p.instances.set k t⟩, ?_, ?_, List.length_set, fun j hj => ?_⟩
  · simp only [Platform.stepAt, hs, hstep]
  · exact List.getElem?_set_self hk
  · exact List.getElem?_set_ne (Ne.symm hj)

end Sys2Proof.Machine
end

section
/-! PROOFS. What the commands of the encode class can do, and the effects and failure effects of every instruction
(spec 10_state sections 3 and 4, 42_address_adapters section 1, 60_exceptions section 1). -/

namespace Sys2Proof.Machine

/-! ## The encode class (R113, R114) -/

/-- An outcome of the encode class on a state: an encode failure with one of the codes, or the encoding of lo to hi
bits. -/
inductive EncodesTo (codes : List ErrCode) (lo hi : Nat) (s : State) : Result → Prop where
  | fails (e : ErrCode) (he : e ∈ codes) : EncodesTo codes lo hi s (encFail e s)
  | sends (bits : List Bool) (hlo : lo ≤ bits.length) (hhi : bits.length ≤ hi) :
      EncodesTo codes lo hi s (encodeBits bits s)

theorem EncodesTo.mono {codes codes' : List ErrCode} {lo lo' hi hi' : Nat} {s : State} {o : Result}
    (h : EncodesTo codes lo hi s o) (hcodes : codes ⊆ codes') (hlo : lo' ≤ lo) (hhi : hi ≤ hi') :
    EncodesTo codes' lo' hi' s o := by
  cases h with
  | fails e he => exact .fails e (hcodes he)
  | sends bits hmin hmax => exact .sends bits (hlo.trans hmin) (hmax.trans hhi)

/-- What such an outcome leaves, where it answers a next state. -/
theorem EncodesTo.next {codes : List ErrCode} {lo hi : Nat} {s t : State} {o : Result}
    (h : EncodesTo codes lo hi s o) (ho : o = .next t) :
    (∃ e ∈ codes, t = (s.setTxbuf []).setErr e) ∨
      ∃ r bits, s.activeRecord = some r ∧ lo ≤ bits.length ∧ bits.length ≤ hi ∧
        t = (s.setTxbuf (pulseTrain r s.actPlen.toNat bits)).setErr .ok := by
  cases h with
  | fails e he =>
    cases ho
    exact .inl ⟨e, he, rfl⟩
  | sends bits hlo hhi =>
    obtain ⟨r, hr, rfl⟩ := encodeBits_next ho
    exact .inr ⟨r, bits, hr, hlo, hhi, rfl⟩

/-- With a record active such an outcome is a next state. -/
theorem EncodesTo.completes {codes : List ErrCode} {lo hi : Nat} {s : State} {r : Protocol} {o : Result}
    (h : EncodesTo codes lo hi s o) (hr : s.activeRecord = some r) : ∃ t, o = .next t := by
  cases h with
  | fails e he => exact ⟨_, encFail_eq e s⟩
  | sends bits => exact ⟨_, encodeBits_eq hr⟩

theorem sendArg_encodesTo {α : Type} {cap hi : Nat} {read : Byte → Option α} {toBits : List α → List Bool} (s : State)
    (hbits : ∀ xs : List α, 1 ≤ xs.length → xs.length ≤ cap →
      1 ≤ (toBits xs).length ∧ (toBits xs).length ≤ hi) :
    EncodesTo [.invalidAddress, .emptyCode] 1 hi s.clearArg (sendArg cap read toBits s) := by
  rw [sendArg]
  split_ifs with hempty hovf hlong
  · exact .fails _ (by simp)
  · exact .fails _ (by simp)
  · exact .fails _ (by simp)
  · split
    · exact .fails _ (by simp)
    · next xs hread =>
      have hlen := readAll_length hread
      obtain ⟨hlo, hhi⟩ := hbits xs (by omega) (by omega)
      exact .sends _ hlo hhi

theorem execSendts_encodesTo (s : State) :
    EncodesTo [.invalidAddress, .emptyCode] 1 64 s.clearArg (execSendts s) := by
  rw [execSendts_eq_sendArg]
  refine sendArg_encodesTo s fun ds hpos hmax => ?_
  have hcap : ds.length ≤ 32 := hmax
  rw [dibits_length]
  omega

theorem execSendbin_encodesTo (s : State) :
    EncodesTo [.invalidAddress, .emptyCode] 1 64 s.clearArg (execSendbin s) := by
  rw [execSendbin_eq_sendArg]
  exact sendArg_encodesTo s fun bits hpos hmax => ⟨hpos, hmax⟩

theorem execSendval_encodesTo (len : BitVec 7) (s : State) :
    EncodesTo [.invalidAddress, .emptyCode] 1 64 s (execSendval len s) := by
  simp only [execSendval]
  split_ifs with hempty hlong hbig
  · exact .fails _ (by simp)
  · exact .fails _ (by simp)
  · exact .fails _ (by simp)
  · refine .sends _ ?_ ?_
    · rw [natToBits_length]
      exact Nat.one_le_iff_ne_zero.mpr hempty
    · rw [natToBits_length]
      exact Nat.not_lt.mp hlong

@[simp] theorem nibbleDigits_length (n : Nibble) : (nibbleDigits n).length = 4 := rfl

/-- The family schemes send 12 digits, whatever the build's tables. -/
theorem dibits_familyDigits_length (t : AdapterTables) (on : Bool) (family unit : BitVec 4) :
    (dibits (familyDigits t on family unit)).length = 24 := by
  simp [familyDigits, nibOf]

theorem dibits_slideDigits_length (t : AdapterTables) (on : Bool) {switches : List Bool} (h : switches.length = 10) :
    (dibits (slideDigits t on switches)).length = 24 := by
  simp [slideDigits, h]

theorem execSwslide_encodesTo (on : Bool) (glen : BitVec 4) (s : State) :
    EncodesTo [.invalidAddress] 24 24 s.clearArg (execSwslide on glen s) := by
  simp only [execSwslide]
  split_ifs with hbad
  · exact .fails _ (by simp)
  · split
    · exact .fails _ (by simp)
    · next switches hread =>
      have hten : switches.length = 10 := (readAll_length hread).trans (by tauto)
      have hlen := dibits_slideDigits_length s.params.adapters on hten
      exact .sends _ hlen.ge hlen.le

theorem execSwfamdev_encodesTo (on : Bool) (chr dev : BitVec 8) (s : State) :
    EncodesTo [.invalidAddress] 24 24 s (execSwfamdev on chr dev s) := by
  rw [execSwfamdev]
  split_ifs
  · exact .fails _ (by simp)
  · exact .fails _ (by simp)
  · have hlen := dibits_familyDigits_length s.params.adapters on
    exact .sends _ (hlen _ _).ge (hlen _ _).le

theorem execSwfamgrp_encodesTo (on : Bool) (chr : BitVec 8) (grp dev : BitVec 4) (s : State) :
    EncodesTo [.invalidAddress] 24 24 s (execSwfamgrp on chr grp dev s) := by
  rw [execSwfamgrp]
  split_ifs
  · exact .fails _ (by simp)
  · exact .fails _ (by simp)
  · exact .fails _ (by simp)
  · have hlen := dibits_familyDigits_length s.params.adapters on
    exact .sends _ (hlen _ _).ge (hlen _ _).le

/-- The state with the operand of an encode-class command read: ARGSTR and AOVF are consumed by the commands that take
their operand there (R114). -/
def operandRead (i : Instr) (s : State) : State := if consumesArg i then s.clearArg else s

theorem operandRead_of_consumesArg {i : Instr} (s : State) (h : consumesArg i = true) :
    operandRead i s = s.clearArg := by
  rw [operandRead, if_pos h]

theorem operandRead_of_not_consumesArg {i : Instr} (s : State) (h : consumesArg i = false) : operandRead i s = s := by
  simp [operandRead, h]

/-- Reading the operand touches nothing but ARGSTR and AOVF. -/
theorem operandRead_frame (i : Instr) (s : State) :
    (operandRead i s).activeRecord = s.activeRecord ∧ (operandRead i s).rx = s.rx ∧
      (operandRead i s).inbox = s.inbox := by
  cases h : consumesArg i with
  | true => rw [operandRead_of_consumesArg s h]; exact ⟨rfl, rfl, rfl⟩
  | false => rw [operandRead_of_not_consumesArg s h]; exact ⟨rfl, rfl, rfl⟩

/-- The address adapters fail with InvalidAddress alone, and send 24 bits (R120, R121). -/
theorem exec_adapter_encodesTo {i : Instr} (s : State) (h : adapterCommand i = true) :
    EncodesTo [.invalidAddress] 24 24 (operandRead i s) (exec i s) := by
  cases i with
  | swslide on glen => exact execSwslide_encodesTo on glen s
  | swfamdev on chr dev => exact execSwfamdev_encodesTo on chr dev s
  | swfamgrp on chr grp dev => exact execSwfamgrp_encodesTo on chr grp dev s
  | _ => cases h

/-- Every command of the encode class fails with a code of its row of R154, or sends 1 to 64 bits. -/
theorem exec_encodesTo {i : Instr} (s : State) (h : encodeClass i = true) :
    EncodesTo (mayRaise i) 1 64 (operandRead i s) (exec i s) := by
  cases i with
  | sendts => exact (execSendts_encodesTo s).mono (by simp [mayRaise]) le_rfl le_rfl
  | sendval len => exact (execSendval_encodesTo len s).mono (by simp [mayRaise]) le_rfl le_rfl
  | sendbin => exact (execSendbin_encodesTo s).mono (by simp [mayRaise]) le_rfl le_rfl
  | swslide | swfamdev | swfamgrp =>
    exact (exec_adapter_encodesTo s rfl).mono (by simp [mayRaise]) (by decide) (by decide)
  | _ => cases h

/-! ## What each kind of instruction leaves unchanged, and the codes in ERR -/

/-- No instruction touches the events that wait, only the encode class writes TXBUF, and only DECODE and RESETRX
write RX. -/
theorem exec_frame {i : Instr} {s t : State} (h : exec i s = .next t) :
    t.inbox = s.inbox ∧ (encodeClass i = false → t.txbuf = s.txbuf) ∧
      (i ≠ .decode → i ≠ .resetrx → t.rx = s.rx) := by
  have hwrite (r : Reg) (w : Word) : (s.writeReg r w).inbox = s.inbox ∧ (s.writeReg r w).txbuf = s.txbuf ∧
      (s.writeReg r w).rx = s.rx := by
    obtain ⟨-, -, -, -, -, -, -, -, htx, hrx, hinbox, -⟩ := writeReg_frame s r w
    exact ⟨hinbox, htx, hrx⟩
  cases hclass : encodeClass i with
  | true =>
    obtain ⟨-, hrx, hinbox⟩ := operandRead_frame i s
    obtain ⟨e, -, rfl⟩ | ⟨r, bits, -, -, -, rfl⟩ := (exec_encodesTo s hclass).next h <;>
      exact ⟨hinbox, nofun, fun _ _ => hrx⟩
  | false =>
    cases i with
    | nop | clrpin | clrarg => cases h; exact ⟨rfl, fun _ => rfl, fun _ _ => rfl⟩
    | resetrx => cases h; exact ⟨rfl, fun _ => rfl, fun _ hne => absurd rfl hne⟩
    | setproto id plen =>
      obtain rfl | ⟨r, -, rfl⟩ := execSetproto_cases h <;> exact ⟨rfl, fun _ => rfl, fun _ _ => rfl⟩
    | lookup id => obtain rfl | ⟨r, -, rfl⟩ := execLookup_cases h <;> exact ⟨rfl, fun _ => rfl, fun _ _ => rfl⟩
    | decode =>
      obtain ⟨e, -, rfl⟩ | ⟨x, -, -, rfl⟩ := execDecode_cases h <;>
        exact ⟨rfl, fun _ => rfl, fun hne => absurd rfl hne⟩
    | wrPulseIn w =>
      cases h
      obtain ⟨hinbox, htx, hrx⟩ := hwrite .pulseIn w
      exact ⟨hinbox, fun _ => htx, fun _ _ => hrx⟩
    | wrArgChar w =>
      cases h
      obtain ⟨hinbox, htx, hrx⟩ := hwrite .argChar w
      exact ⟨hinbox, fun _ => htx, fun _ _ => hrx⟩
    | busRead r => obtain ⟨w, -, rfl⟩ := execBusRead_cases h; exact ⟨rfl, fun _ => rfl, fun _ _ => rfl⟩
    | busWrite r w =>
      obtain ⟨-, rfl⟩ := execBusWrite_cases h
      obtain ⟨hinbox, htx, hrx⟩ := hwrite r w
      exact ⟨hinbox, fun _ => htx, fun _ _ => hrx⟩
    | sendts | sendval | sendbin | swslide | swfamdev | swfamgrp => cases hclass

theorem writeReg_err (s : State) (r : Reg) (w : Word) : (s.writeReg r w).err = s.err := by
  obtain ⟨-, -, herr, -⟩ := writeReg_frame s r w
  exact herr

/-- A bus operation is no command, so it leaves ERR alone (R155). -/
theorem exec_err_of_busOperation {i : Instr} {s t : State} (hbus : busOperation i = true)
    (h : exec i s = .next t) : t.err = s.err := by
  cases i with
  | wrPulseIn w => cases h; exact writeReg_err s .pulseIn w
  | wrArgChar w => cases h; exact writeReg_err s .argChar w
  | busRead r => obtain ⟨w, -, rfl⟩ := execBusRead_cases h; rfl
  | busWrite r w => obtain ⟨-, rfl⟩ := execBusWrite_cases h; exact writeReg_err s r w
  | _ => cases hbus

/-- Every command can succeed. -/
theorem ok_mem_mayRaise {i : Instr} (hcmd : busOperation i = false) : .ok ∈ mayRaise i := by
  cases i with
  | wrPulseIn | wrArgChar | busRead | busWrite => cases hcmd
  | _ => exact List.mem_cons_self

/-- A command leaves a code of its row of R154. -/
theorem exec_err_mem_mayRaise {i : Instr} {s t : State} (hcmd : busOperation i = false) (h : exec i s = .next t) :
    t.err ∈ mayRaise i := by
  cases hclass : encodeClass i with
  | true =>
    obtain ⟨e, he, rfl⟩ | ⟨r, bits, -, -, -, rfl⟩ := (exec_encodesTo s hclass).next h
    · exact he
    · exact ok_mem_mayRaise hcmd
  | false =>
    cases i with
    | nop | clrpin | resetrx | clrarg => cases h; exact List.mem_cons_self
    | setproto id plen => obtain rfl | ⟨r, -, rfl⟩ := execSetproto_cases h <;> simp [mayRaise]
    | lookup id => obtain rfl | ⟨r, -, rfl⟩ := execLookup_cases h <;> simp [mayRaise]
    | decode => obtain ⟨e, rfl | rfl, rfl⟩ | ⟨x, -, -, rfl⟩ := execDecode_cases h <;> simp [mayRaise]
    | wrPulseIn | wrArgChar | busRead | busWrite => cases hcmd
    | sendts | sendval | sendbin | swslide | swfamdev | swfamgrp => cases hclass

/-! ## Failing commands (R157) -/

/-- A failing command of the encode class has read its operand and emptied TXBUF. -/
theorem exec_encode_of_err {i : Instr} {s t : State} (hclass : encodeClass i = true) (h : exec i s = .next t)
    (herr : t.err ≠ .ok) : t = ((operandRead i s).setTxbuf []).setErr t.err := by
  obtain ⟨e, -, rfl⟩ | ⟨r, bits, -, -, -, rfl⟩ := (exec_encodesTo s hclass).next h
  · rfl
  · exact absurd rfl herr

/-- A failing DECODE has consumed PIN and POVF. -/
theorem execDecode_of_err {s t : State} (h : execDecode s = .next t) (herr : t.err ≠ .ok) :
    t = s.clearPin.setErr t.err := by
  obtain ⟨e, -, rfl⟩ | ⟨x, -, -, rfl⟩ := execDecode_cases h
  · rfl
  · exact absurd rfl herr

/-- Every other failing command has written ERR alone. -/
theorem exec_plain_of_err {i : Instr} {s t : State} (hcmd : busOperation i = false) (hclass : encodeClass i = false)
    (hdecode : i ≠ .decode) (h : exec i s = .next t) (herr : t.err ≠ .ok) : t = s.setErr t.err := by
  cases i with
  | nop | clrpin | resetrx | clrarg => cases h; exact absurd rfl herr
  | setproto id plen =>
    obtain rfl | ⟨r, -, rfl⟩ := execSetproto_cases h
    · rfl
    · exact absurd rfl herr
  | lookup id =>
    obtain rfl | ⟨r, -, rfl⟩ := execLookup_cases h
    · rfl
    · exact absurd rfl herr
  | decode => exact absurd rfl hdecode
  | wrPulseIn | wrArgChar | busRead | busWrite => cases hcmd
  | sendts | sendval | sendbin | swslide | swfamdev | swfamgrp => cases hclass

/-! ## The obligations -/

/-- Settles O29: the outcome is an encode failure with the one code, or the encoding of 24 bits. -/
theorem adaptersSendFiftyPulsesOrFail : Obligations.AdaptersSendFiftyPulsesOrFail := by
  intro i s r hadapter hr
  obtain ⟨hactive, -⟩ := operandRead_frame i s
  have henc := exec_adapter_encodesTo s hadapter
  obtain ⟨t, ht⟩ := henc.completes (hactive.trans (activeRecord_of_activeIs hr))
  refine ⟨t, ht, ?_⟩
  obtain ⟨e, he, rfl⟩ | ⟨q, bits, -, hlo, hhi, rfl⟩ := henc.next ht
  · exact .inr ⟨List.mem_singleton.mp he, rfl⟩
  · exact .inl ⟨rfl, (pulseTrain_length q _ bits).trans (by omega)⟩

/-- Settles O50. -/
theorem errIsWrittenByCommandsOnly : Obligations.ErrIsWrittenByCommandsOnly :=
  fun _ _ _ h => ⟨fun hbus => exec_err_of_busOperation hbus h, fun hcmd => exec_err_mem_mayRaise hcmd h⟩

/-- Settles O51, by the class of the failing command. -/
theorem failedCommandLeavesNoPartialResult : Obligations.FailedCommandLeavesNoPartialResult := by
  intro i s t hcmd h herr
  refine ⟨fun ⟨hclass, harg⟩ => ?_, fun ⟨hclass, harg⟩ => ?_, ?_, fun ⟨hclass, hdecode⟩ => ?_⟩
  · have ht := exec_encode_of_err hclass h herr
    rw [operandRead_of_consumesArg s harg] at ht
    exact ht
  · have ht := exec_encode_of_err hclass h herr
    rw [operandRead_of_not_consumesArg s harg] at ht
    exact ht
  · rintro rfl
    exact execDecode_of_err h herr
  · exact exec_plain_of_err hcmd hclass hdecode h herr

/-- Settles O52. -/
theorem onlyEncodeClassWritesTxbuf : Obligations.OnlyEncodeClassWritesTxbuf := by
  intro i s t hclass h
  obtain ⟨-, htx, -⟩ := exec_frame h
  exact htx hclass

/-- Settles O53: besides the frame, a DECODE publishes only when it succeeds. -/
theorem onlyDecodeAndResetrxWriteRx : Obligations.OnlyDecodeAndResetrxWriteRx := by
  intro i s t h
  obtain ⟨-, -, hrx⟩ := exec_frame h
  refine ⟨hrx, ?_⟩
  rintro rfl herr
  exact execDecode_rx_of_err h herr

/-- Settles O28: both commands encode the same letter and the same unit, or both refuse the letter. -/
theorem swfamgrpIsSwfamdevOfUnit : Obligations.SwfamgrpIsSwfamdevOfUnit := by
  intro s on chr dev g v hg1 hg4 hv1 hv4 hdev
  show execSwfamgrp on chr g v s = execSwfamdev on chr dev s
  cases hletter : letterOk chr with
  | false => rw [execSwfamgrp_of_invalid (.inl hletter), execSwfamdev_of_invalid (.inl hletter)]
  | true =>
    have hunit : 4 * (g.toNat - 1) + (v.toNat - 1) = dev.toNat - 1 := by omega
    rw [execSwfamgrp_of_valid hletter ⟨hg1, hg4⟩ ⟨hv1, hv4⟩,
      execSwfamdev_of_valid hletter (by omega), hunit]

end Sys2Proof.Machine
end

section
/-! PROOFS. The invariants of the state (spec 10_state R65, 44_receiver R148), progress (60_exceptions R158), and runs
of every length. -/

namespace Sys2Proof.Machine

/-! ## The invariants of R65, update by update -/

section
variable {s : State}

theorem StateInv.setErr (h : StateInv s) (e : ErrCode) : StateInv (s.setErr e) := { h with }

theorem StateInv.setResp (h : StateInv s) (p : Response) : StateInv (s.setResp p) := { h with }

theorem StateInv.accept (h : StateInv s) (rest : List BusEvent) : StateInv (s.accept rest) := { h with }

theorem StateInv.setAovf (h : StateInv s) : StateInv s.setAovf := { h with }

theorem StateInv.setPovf (h : StateInv s) : StateInv s.setPovf := { h with }

theorem StateInv.setValLo (h : StateInv s) (w : Word) : StateInv (s.setValLo w) := { h with }

theorem StateInv.setValHi (h : StateInv s) (w : Word) : StateInv (s.setValHi w) := { h with }

theorem StateInv.setTxIdx (h : StateInv s) (i : BitVec 16) : StateInv (s.setTxIdx i) := { h with }

theorem StateInv.setRxRawIdx (h : StateInv s) (i : BitVec 16) : StateInv (s.setRxRawIdx i) := { h with }

theorem StateInv.setLookup (h : StateInv s) (id : BitVec 8) (r : Protocol) : StateInv (s.setLookup id r) := { h with }

theorem StateInv.clearArg (h : StateInv s) : StateInv s.clearArg := { h with argstr_le := Nat.zero_le _ }

theorem StateInv.clearPin (h : StateInv s) : StateInv s.clearPin := { h with pin_le := Nat.zero_le _ }

theorem StateInv.pushArg (h : StateInv s) (c : Byte) : StateInv (pushArg c s) := by
  obtain ⟨hroom, hpush⟩ | ⟨-, hpush⟩ := pushArg_cases c s <;> rw [hpush]
  · exact { h with argstr_le := by rw [State.appendArg_argstr, List.length_append]; exact hroom }
  · exact h.setAovf

theorem StateInv.pushPulse (h : StateInv s) (d : BitVec 32) : StateInv (pushPulse d s) := by
  obtain ⟨hroom, hpush⟩ | ⟨-, hpush⟩ := pushPulse_cases d s <;> rw [hpush]
  · exact { h with pin_le := by rw [State.appendPin_pin, List.length_append]; exact hroom }
  · exact h.setPovf

theorem StateInv.writeReg (h : StateInv s) (r : Reg) (w : Word) : StateInv (s.writeReg r w) := by
  cases r with
  | valLo => exact h.setValLo w
  | valHi => exact h.setValHi w
  | argChar => exact h.pushArg _
  | pulseIn => exact h.pushPulse w
  | txIdx => exact h.setTxIdx _
  | rxRawIdx => exact h.setRxRawIdx _
  | _ => exact h

/-- A record of the table may be made active, at its own pulse length or a positive other one (R106). -/
theorem StateInv.setActive (h : StateInv s) {id : BitVec 8} {r : Protocol} (hr : romAt s.rom id = some r)
    (plen : BitVec 16) : StateInv (s.setActive id (if plen = 0#16 then r.pulseLength else plen)) := by
  obtain ⟨hpos, hrow⟩ := romAt_eq_some.mp hr
  have hlt := (List.getElem?_eq_some_iff.mp hrow).1
  obtain ⟨-, -, -, -, -, -, -, -, -, hwf⟩ := h.ranges
  obtain ⟨hplen, -⟩ := Protocol.wf_iff.mp (hwf r (List.mem_of_getElem? hrow))
  have hne : (if plen = 0#16 then r.pulseLength else plen) ≠ 0#16 := by
    split_ifs with hzero
    · exact hplen
    · exact hzero
  refine { h with actProto_pos := hpos, actProto_le := ?_, actPlen_pos := ?_ }
  · rw [State.setActive_actProto, State.setActive_rom]
    omega
  · exact Nat.one_le_iff_ne_zero.mpr fun hzero => hne (BitVec.eq_of_toNat_eq hzero)

/-- An empty TXBUF, or the train of 1 to 64 bits with the active record, keeps what R65 says of TXBUF. -/
theorem StateInv.clearTxbuf (h : StateInv s) : StateInv (s.setTxbuf []) :=
  { h with txbuf_le := Nat.zero_le _, tx_ok := .inl rfl }

theorem txOk_pulseTrain {rom : List Protocol} {r : Protocol} (hr : r ∈ rom) (L : Nat) {bits : List Bool}
    (hpos : 1 ≤ bits.length) : TxOk rom (pulseTrain r L bits) where
  even := by rw [pulseTrain_length]; omega
  ge_four := by rw [pulseTrain_length]; omega
  levels := ⟨r, hr, fun _ _ => level_of_pulseTrain⟩

theorem StateInv.setTrain (h : StateInv s) {r : Protocol} (hr : s.activeRecord = some r) (L : Nat) {bits : List Bool}
    (hpos : 1 ≤ bits.length) (hmax : bits.length ≤ 64) : StateInv (s.setTxbuf (pulseTrain r L bits)) := by
  have hcap : txCap = 130 := rfl
  have hmem : r ∈ s.rom := List.mem_of_getElem? (romAt_eq_some.mp hr).2
  refine { h with txbuf_le := ?_, tx_ok := .inr (txOk_pulseTrain hmem L hpos) }
  rw [State.setTxbuf_txbuf, pulseTrain_length]
  omega

theorem StateInv.invalidateRx (h : StateInv s) : StateInv (s.setRx none) := { h with rx_ok := nofun }

theorem StateInv.publishRx (h : StateInv s) {x : RxResult} (hx : RxOk s.cfg x) : StateInv (s.setRx (some x)) :=
  { h with rx_ok := fun _ hy => Option.some.inj hy ▸ hx }

end

/-! ## What DECODE publishes is in its ranges -/

/-- The unit of a frame is no more than some duration of the sequence, since it is a duration divided by a multiple. -/
theorem exists_unit_le_of_tryProtocol {m u : Nat} {r : Protocol} {p : List Nat} {bits : List Bool}
    (h : tryProtocol m r p = some (u, bits)) : ∃ a ∈ p, u ≤ a := by
  obtain ⟨k, hk, -⟩ := tryProtocol_eq_some.mp h
  obtain ⟨a, b, ha, -, hsync, -⟩ := frameAt_eq_some.mp hk
  obtain ⟨rfl, -⟩ := syncMatch_eq_some.mp hsync
  exact ⟨a, List.mem_of_mem_drop (List.mem_of_getElem? ha), Nat.div_le_self _ _⟩

theorem toNat_ofNat_of_fits {w n : Nat} (h : n < 2 ^ w) : (BitVec.ofNat w n).toNat = n := by
  rw [BitVec.toNat_ofNat, Nat.mod_eq_of_lt h]

/-- A decoded result is in the ranges of R65: its id and its bit count fit their fields, its unit is at most a
duration of PIN. -/
theorem rxOk_of_decodeTrain {s : State} {x : RxResult} (h : StateInv s)
    (hx : decodeTrain s.params.minBits s.rom s.pin = some x) : RxOk s.cfg x := by
  obtain ⟨j, u, bits, hfirst, rfl⟩ := decodeTrain_eq_some hx
  obtain ⟨r, hrow, hfit⟩ := exists_record_of_firstAt hfirst
  have hj : j < s.rom.length := (List.getElem?_eq_some_iff.mp hrow).1
  obtain ⟨-, -, hrom, -⟩ := h.ranges
  obtain ⟨hupos, hmin, hmax⟩ := tryFrom_some hfit
  obtain ⟨a, ha, hua⟩ := exists_unit_le_of_tryProtocol hfit
  obtain ⟨d, -, rfl⟩ := List.mem_map.mp ha
  have hmax : bits.length ≤ 64 := hmax
  have hu := hua.trans_lt d.isLt
  have hid : (BitVec.ofNat 8 (j + 1)).toNat = j + 1 := toNat_ofNat_of_fits (by omega)
  have hlen : (BitVec.ofNat 7 bits.length).toNat = bits.length := toNat_ofNat_of_fits (by omega)
  have hvalue : (BitVec.ofNat 64 (bitsToNat bits)).toNat = bitsToNat bits :=
    toNat_ofNat_of_fits ((bitsToNat_lt bits).trans_le (Nat.pow_le_pow_right (by decide) hmax))
  have hdelay : (BitVec.ofNat 32 u).toNat = u := toNat_ofNat_of_fits hu
  exact {
    proto_pos := by rw [hid]; omega
    proto_le := by rw [hid]; exact hj
    bitlen_ge := by rw [hlen]; exact hmin
    bitlen_le := by rw [hlen]; exact hmax
    value_lt := by rw [hlen, hvalue]; exact bitsToNat_lt bits
    delay_pos := by rw [hdelay]; exact hupos
    raw_le := h.pin_le }

/-! ## Every instruction and every step keeps the invariants -/

theorem StateInv.operandRead {s : State} (h : StateInv s) (i : Instr) : StateInv (operandRead i s) := by
  cases harg : consumesArg i with
  | true => rw [operandRead_of_consumesArg s harg]; exact h.clearArg
  | false => rw [operandRead_of_not_consumesArg s harg]; exact h

theorem exec_stateInv {i : Instr} {s t : State} (hs : StateInv s) (h : exec i s = .next t) : StateInv t := by
  cases hclass : encodeClass i with
  | true =>
    obtain ⟨e, -, rfl⟩ | ⟨r, bits, hr, hlo, hhi, rfl⟩ := (exec_encodesTo s hclass).next h
    · exact (hs.operandRead i).clearTxbuf.setErr e
    · exact ((hs.operandRead i).setTrain hr _ hlo hhi).setErr .ok
  | false =>
    cases i with
    | nop => cases h; exact hs.setErr .ok
    | clrpin => cases h; exact hs.clearPin.setErr .ok
    | resetrx => cases h; exact hs.invalidateRx.setErr .ok
    | clrarg => cases h; exact hs.clearArg.setErr .ok
    | setproto id plen =>
      obtain rfl | ⟨r, hr, rfl⟩ := execSetproto_cases h
      · exact hs.setErr .unknownProtocol
      · exact (hs.setActive hr plen).setErr .ok
    | lookup id =>
      obtain rfl | ⟨r, -, rfl⟩ := execLookup_cases h
      · exact hs.setErr .unknownProtocol
      · exact (hs.setLookup id r).setErr .ok
    | decode =>
      obtain ⟨e, -, rfl⟩ | ⟨x, hx, -, rfl⟩ := execDecode_cases h
      · exact hs.clearPin.setErr e
      · have hrx : RxOk s.cfg x := rxOk_of_decodeTrain hs hx
        exact (hs.clearPin.publishRx hrx).setErr .ok
    | wrPulseIn w => cases h; exact hs.pushPulse w
    | wrArgChar w => cases h; exact hs.pushArg _
    | busRead r => obtain ⟨w, -, rfl⟩ := execBusRead_cases h; exact hs.setResp _
    | busWrite r w => obtain ⟨-, rfl⟩ := execBusWrite_cases h; exact hs.writeReg r w
    | sendts | sendval | sendbin | swslide | swfamdev | swfamgrp => cases hclass

/-- A well-formed build's reset state has the invariants: protocol 1 is active, at a pulse length of 350 (R101). -/
theorem resetOf_stateInv {c : Config} (h : c.wf = true) : StateInv (State.resetOf c) where
  cfg_wf := h
  actProto_pos := le_rfl
  actProto_le := by
    obtain ⟨-, hpos, -⟩ := Config.ranges_of_wf h
    exact hpos
  actPlen_pos := by
    obtain ⟨r, rs, htable, hr, -⟩ := Config.fixture_of_wf h
    rw [resetOf_actPlen htable, hr]
    exact (by decide : 1 ≤ (350#16).toNat)
  argstr_le := Nat.zero_le _
  pin_le := Nat.zero_le _
  txbuf_le := Nat.zero_le _
  rx_ok := nofun
  tx_ok := .inl rfl

theorem hardReset_stateInv {s : State} (h : StateInv s) (rest : List BusEvent) : StateInv (hardReset s rest) :=
  { resetOf_stateInv h.cfg_wf with }

theorem serveReject_next {e : Reject} {a : Access} {s t : State} (h : serveReject e a s = .next t) :
    t = s.setErr .illegalCommand := by
  cases e with
  | illegalCommand => cases h; rfl
  | outsideWindow => cases h
  | badWidth => cases h
  | misaligned => cases h

theorem step_stateInv {s t : State} (hs : StateInv s) (h : step s = .next t) : StateInv t := by
  obtain ⟨-, rfl⟩ | ⟨-, rest, -, rfl⟩ | ⟨a, rest, i, -, -, hexec⟩ | ⟨a, rest, e, -, -, hrej⟩ := step_cases h
  · exact hs
  · exact hardReset_stateInv hs rest
  · exact exec_stateInv (hs.accept rest) hexec
  · rw [serveReject_next hrej]
    exact (hs.accept rest).setErr .illegalCommand

/-! ## The overflow flags (R148, R128) -/

section
variable {s : State}

theorem OverflowInv.setErr (h : OverflowInv s) (e : ErrCode) : OverflowInv (s.setErr e) := { h with }

theorem OverflowInv.accept (h : OverflowInv s) (rest : List BusEvent) : OverflowInv (s.accept rest) := { h with }

theorem OverflowInv.setTxbuf (h : OverflowInv s) (t : List TxEntry) : OverflowInv (s.setTxbuf t) := { h with }

theorem OverflowInv.clearArg (h : OverflowInv s) : OverflowInv s.clearArg := { h with aovf_full := nofun }

theorem OverflowInv.clearPin (h : OverflowInv s) : OverflowInv s.clearPin := { h with povf_full := nofun }

/-- A set flag means a full buffer, into which nothing is pushed; and it is set only where the buffer is full. -/
theorem OverflowInv.pushArg (h : OverflowInv s) (hs : StateInv s) (c : Byte) : OverflowInv (pushArg c s) := by
  obtain ⟨hroom, hpush⟩ | ⟨hfull, hpush⟩ := pushArg_cases c s <;> rw [hpush]
  · exact { h with aovf_full := fun hovf => absurd (h.aovf_full hovf) hroom.ne }
  · exact { h with aovf_full := fun _ => le_antisymm hs.argstr_le hfull }

theorem OverflowInv.pushPulse (h : OverflowInv s) (hs : StateInv s) (d : BitVec 32) :
    OverflowInv (pushPulse d s) := by
  obtain ⟨hroom, hpush⟩ | ⟨hfull, hpush⟩ := pushPulse_cases d s <;> rw [hpush]
  · exact { h with povf_full := fun hovf => absurd (h.povf_full hovf) hroom.ne }
  · exact { h with povf_full := fun _ => le_antisymm hs.pin_le hfull }

theorem OverflowInv.writeReg (h : OverflowInv s) (hs : StateInv s) (r : Reg) (w : Word) :
    OverflowInv (s.writeReg r w) := by
  cases r with
  | argChar => exact h.pushArg hs _
  | pulseIn => exact h.pushPulse hs w
  | _ => exact { h with }

theorem OverflowInv.operandRead (h : OverflowInv s) (i : Instr) : OverflowInv (operandRead i s) := by
  cases harg : consumesArg i with
  | true => rw [operandRead_of_consumesArg s harg]; exact h.clearArg
  | false => rw [operandRead_of_not_consumesArg s harg]; exact h

end

theorem exec_overflowInv {i : Instr} {s t : State} (hs : StateInv s) (ho : OverflowInv s) (h : exec i s = .next t) :
    OverflowInv t := by
  cases hclass : encodeClass i with
  | true =>
    obtain ⟨e, -, rfl⟩ | ⟨r, bits, -, -, -, rfl⟩ := (exec_encodesTo s hclass).next h <;>
      exact ((ho.operandRead i).setTxbuf _).setErr _
  | false =>
    cases i with
    | nop | resetrx => cases h; exact { ho with }
    | clrpin => cases h; exact ho.clearPin.setErr .ok
    | clrarg => cases h; exact ho.clearArg.setErr .ok
    | setproto id plen => obtain rfl | ⟨r, -, rfl⟩ := execSetproto_cases h <;> exact { ho with }
    | lookup id => obtain rfl | ⟨r, -, rfl⟩ := execLookup_cases h <;> exact { ho with }
    | decode => obtain ⟨e, -, rfl⟩ | ⟨x, -, -, rfl⟩ := execDecode_cases h <;> exact { ho.clearPin with }
    | wrPulseIn w => cases h; exact ho.pushPulse hs w
    | wrArgChar w => cases h; exact ho.pushArg hs _
    | busRead r => obtain ⟨w, -, rfl⟩ := execBusRead_cases h; exact { ho with }
    | busWrite r w => obtain ⟨-, rfl⟩ := execBusWrite_cases h; exact ho.writeReg hs r w
    | sendts | sendval | sendbin | swslide | swfamdev | swfamgrp => cases hclass

theorem resetOf_overflowInv (c : Config) : OverflowInv (State.resetOf c) where
  aovf_full := nofun
  povf_full := nofun

theorem step_overflowInv {s t : State} (hs : StateInv s) (ho : OverflowInv s) (h : step s = .next t) :
    OverflowInv t := by
  obtain ⟨-, rfl⟩ | ⟨-, rest, -, rfl⟩ | ⟨a, rest, i, -, -, hexec⟩ | ⟨a, rest, e, -, -, hrej⟩ := step_cases h
  · exact ho
  · exact { resetOf_overflowInv s.cfg with }
  · exact exec_overflowInv (hs.accept rest) (ho.accept rest) hexec
  · rw [serveReject_next hrej]
    exact (ho.accept rest).setErr .illegalCommand

/-! ## Progress (R158) -/

theorem StateInv.exists_activeRecord {s : State} (h : StateInv s) : ∃ r, s.activeRecord = some r :=
  exists_romAt h.actProto_pos h.actProto_le

theorem execBusRead_of_some {s : State} {r : Reg} {w : Word} (h : s.readReg r = some w) :
    execBusRead r s = .next (s.setResp (.data w)) := by
  simp only [execBusRead, h]

/-- Every well-formed instruction completes, but for the read of an RX view while RX is not valid. -/
theorem exec_completes {i : Instr} {s : State} (hs : StateInv s) (hwf : i.wellFormed = true)
    (hview : ∀ r, i = .busRead r → isRxView r = true → s.rxValid = true) : ∃ t, exec i s = .next t := by
  cases hclass : encodeClass i with
  | true =>
    obtain ⟨r, hr⟩ := hs.exists_activeRecord
    obtain ⟨hactive, -⟩ := operandRead_frame i s
    exact (exec_encodesTo s hclass).completes (hactive.trans hr)
  | false =>
    cases i with
    | nop | clrpin | resetrx | clrarg | wrPulseIn | wrArgChar => exact ⟨_, rfl⟩
    | setproto id plen =>
      cases hr : romAt s.rom id with
      | none => exact ⟨_, execSetproto_of_none plen hr⟩
      | some r => exact ⟨_, execSetproto_of_some plen hr⟩
    | lookup id =>
      cases hr : romAt s.rom id with
      | none => exact ⟨_, execLookup_of_none hr⟩
      | some r => exact ⟨_, execLookup_of_some hr⟩
    | decode => exact execDecode_completes s
    | busRead r =>
      cases hread : s.readReg r with
      | some w => exact ⟨_, execBusRead_of_some hread⟩
      | none =>
        obtain ⟨hrx, hinvalid⟩ := readReg_eq_none.mp hread
        exact absurd (hview r rfl hrx) (by simp [hinvalid])
    | busWrite r w =>
      cases r with
      | cmd => cases hwf
      | _ => exact ⟨_, rfl⟩
    | sendts | sendval | sendbin | swslide | swfamdev | swfamgrp => cases hclass

theorem step_completes {s : State} (hs : StateInv s) (hobeys : HostObeys s) : ∃ t, step s = .next t := by
  match hin : s.inbox with
  | [] => exact ⟨_, step_of_idle hin⟩
  | .reset abandoned :: rest => exact ⟨_, step_of_reset hin⟩
  | .access a :: rest =>
    obtain ⟨haligned, hviews⟩ := hobeys a rest hin
    obtain ⟨i, hd⟩ | hd := decode_of_aligned haligned
    · obtain ⟨hwf, henc⟩ := encode_decode hd
      rw [step_of_instr hin hd]
      refine exec_completes (hs.accept rest) hwf ?_
      rintro r rfl hview
      exact hviews r henc.symm hview
    · exact ⟨_, (step_of_reject hin hd).trans (fail_eq _ _)⟩

/-! ## Runs of a host that reads no RX view -/

/-- A step takes events off the list, and adds none. -/
theorem mem_inbox_of_step {s t : State} (h : step s = .next t) {e : BusEvent} (he : e ∈ t.inbox) : e ∈ s.inbox := by
  obtain ⟨-, rfl⟩ | ⟨abandoned, rest, hin, rfl⟩ | ⟨a, rest, i, hin, -, hexec⟩ | ⟨a, rest, e', hin, -, hrej⟩ :=
    step_cases h
  · exact he
  · exact hin ▸ List.mem_cons_of_mem _ he
  · obtain ⟨hinbox, -⟩ := exec_frame hexec
    rw [hinbox] at he
    exact hin ▸ List.mem_cons_of_mem _ he
  · rw [serveReject_next hrej] at he
    exact hin ▸ List.mem_cons_of_mem _ he

theorem HostObeysAlways.step {s t : State} (hobeys : HostObeysAlways s) (h : step s = .next t) : HostObeysAlways t := by
  intro a ha
  have hbase : t.params.base = s.params.base := congrArg (fun c : Config => c.base) (step_cfg h)
  rw [hbase]
  exact hobeys a (mem_inbox_of_step h ha)

theorem HostObeysAlways.hostObeys {s : State} (h : HostObeysAlways s) : HostObeys s := by
  intro a rest hin
  obtain ⟨haligned, hviews⟩ := h a (hin ▸ List.mem_cons_self)
  exact ⟨haligned, fun r hr hview => absurd hview (by simp [hviews r hr])⟩

theorem runSteps_completes (k : Nat) {s : State} (hs : StateInv s) (hobeys : HostObeysAlways s) : SafeRun k s := by
  induction k generalizing s with
  | zero => exact ⟨s, runSteps_zero s⟩
  | succ k ih =>
    obtain ⟨t, ht⟩ := step_completes hs hobeys.hostObeys
    obtain ⟨u, hu⟩ := ih (step_stateInv hs ht) (hobeys.step ht)
    exact ⟨u, (runSteps_succ k ht).trans hu⟩

/-! ## Lines of pushes (R97) -/

section
variable {α : Type} {f : List α → State} {push : α → Instr} {base cap : Nat}

/-- Where each write of a line appends its element to what `f` stands for, as long as there is room, a run over the line
appends all of them. -/
theorem runSteps_pushes (hbase : ∀ done, (f done).params.base = base) (hwf : ∀ x, (push x).wellFormed = true)
    (hpush : ∀ done x rest, done.length < cap →
      exec (push x) ((f done).accept rest) = .next ((f (done ++ [x])).accept rest)) :
    ∀ xs done : List α, done.length + xs.length ≤ cap →
      runSteps xs.length ((f done).accept (xs.map fun x => .access (encode base (push x)))) =
        .next ((f (done ++ xs)).accept [])
  | [], done, _ => by
    rw [List.append_nil]
    rfl
  | x :: xs, done, hcap => by
    rw [List.length_cons] at hcap
    have hin : ((f done).accept ((x :: xs).map fun x => .access (encode base (push x)))).inbox =
        .access (encode (f done).params.base (push x)) :: xs.map fun x => .access (encode base (push x)) := by
      rw [hbase]
      rfl
    have hfirst := (step_of_encode hin (hwf x)).trans (hpush done x _ (by omega))
    have hrest := runSteps_pushes hbase hwf hpush xs (done ++ [x])
      (by rw [List.length_append, List.length_singleton]; omega)
    rw [List.append_assoc] at hrest
    exact (runSteps_succ xs.length hfirst).trans hrest

/-- A line that clears a buffer and then pushes into it, from a state with no event waiting. -/
theorem runSteps_line {s : State} {clear : Instr} {xs : List α} (hin : s.inbox = [])
    (hbase : ∀ done, (f done).params.base = s.params.base) (hclearwf : clear.wellFormed = true)
    (hclear : ∀ rest, exec clear (s.accept rest) = .next ((f []).accept rest))
    (hwf : ∀ x, (push x).wellFormed = true)
    (hpush : ∀ done x rest, done.length < cap →
      exec (push x) ((f done).accept rest) = .next ((f (done ++ [x])).accept rest)) (hcap : xs.length ≤ cap) :
    runSteps (xs.length + 1)
        (s.post (encode s.params.base clear :: xs.map fun x => encode s.params.base (push x))) =
      .next ((f xs).accept []) := by
  have hposted : (s.post (encode s.params.base clear :: xs.map fun x => encode s.params.base (push x))).inbox =
      .access (encode s.params.base clear) :: xs.map fun x => .access (encode s.params.base (push x)) := by
    simp [hin]
  have hfirst := (step_of_encode hposted hclearwf).trans (hclear _)
  exact (runSteps_succ xs.length hfirst).trans (runSteps_pushes hbase hwf hpush xs [] (by simpa using hcap))

end

theorem accept_nil_of_idle {s : State} (h : s.inbox = []) : s.accept [] = { s with resp := .ack } := by
  rw [State.accept, ← h]

theorem exec_wrArgChar_of_room {s : State} (c : Byte) (h : s.argstr.length < s.params.maxArg) :
    exec (.wrArgChar (place c 0)) s = .next (s.appendArg c) := by
  have hlow : (place c 0).extractLsb' 0 8 = c := extractLsb'_place c (by decide)
  show Host.Outcome.next (pushArg ((place c 0).extractLsb' 0 8) s) = _
  rw [hlow, pushArg, if_pos h]

theorem exec_wrPulseIn_of_room {s : State} (d : Word) (h : s.pin.length < s.params.maxPulses) :
    exec (.wrPulseIn d) s = .next (s.appendPin d) := by
  show Host.Outcome.next (pushPulse d s) = _
  rw [pushPulse, if_pos h]

/-! ## The obligations -/

/-- Settles O4: each named update keeps the invariants under its own condition, which its instruction checks. -/
theorem everyStepKeepsInvariants : Obligations.EveryStepKeepsInvariants :=
  fun _ _ hs h => step_stateInv hs h

/-- Settles O56: the host's contract and the invariants hold again after each step. -/
theorem obedientRunsAreSafe : Obligations.ObedientRunsAreSafe :=
  fun k _ hs hobeys => ⟨runSteps_completes k hs hobeys,
    fun _ h => runSteps_keeps (fun _ _ hu hstep => step_stateInv hu hstep) hs h⟩

/-- Settles O5: a flag is set only by a push that finds its buffer full, and nothing else lengthens a buffer. -/
theorem overflowFlagMeansFullBuffer : Obligations.OverflowFlagMeansFullBuffer :=
  fun _ _ hs ho h => step_overflowInv hs ho h

/-- Settles O55: of the instructions only the read of an invalid RX view stops, and the host makes none. -/
theorem everyStepCompletes : Obligations.EveryStepCompletes :=
  fun _ hs hobeys => step_completes hs hobeys

/-- Settles O3. -/
theorem invariantsHoldAfterReset : Obligations.InvariantsHoldAfterReset :=
  ⟨fun c h => ⟨resetOf_stateInv h, resetOf_overflowInv c⟩, resetOf_stateInv (by decide)⟩

/-- Settles O54: both lines clear their buffer and then push each element, for which there is room. -/
theorem argsAndPulsesLinesFillTheBuffers : Obligations.ArgsAndPulsesLinesFillTheBuffers := by
  refine ⟨fun s str hin hroom => ?_, fun s ds hin hroom => ?_⟩
  · refine (runSteps_line (f := fun done => { s with argstr := done, aovf := false, err := .ok })
      (push := fun c => .wrArgChar (place c 0)) (clear := .clrarg) hin (fun _ => rfl) rfl (fun _ => rfl)
      (fun _ => rfl) (fun _ c _ hlt => exec_wrArgChar_of_room c hlt) hroom).trans ?_
    exact congrArg Host.Outcome.next (accept_nil_of_idle hin)
  · refine (runSteps_line (f := fun done => { s with pin := done, povf := false, err := .ok })
      (push := .wrPulseIn) (clear := .clrpin) hin (fun _ => rfl) rfl (fun _ => rfl)
      (fun _ => rfl) (fun _ d _ hlt => exec_wrPulseIn_of_room d hlt) hroom).trans ?_
    exact congrArg Host.Outcome.next (accept_nil_of_idle hin)

end Sys2Proof.Machine
end

section
/-! PROOFS. The ARG_CHAR port, and the reads and writes of the register window (spec 44_receiver_and_control sections 2
and 4). -/

namespace Sys2Proof.Machine

/-! ## Register words as numbers -/

/-- A field at bit 0 is the word of its value. -/
theorem place_zero_eq {n : Nat} (v : BitVec n) (hn : n ≤ 32) : place v 0 = BitVec.ofNat 32 v.toNat := by
  apply BitVec.eq_of_toNat_eq
  rw [toNat_place_zero v hn, toNat_ofNat_of_fits (v.isLt.trans_le (Nat.pow_le_pow_right (by decide) hn))]

/-- A length stands in bits 15:0. -/
theorem lenWord_eq (n : Nat) : lenWord n = BitVec.ofNat 32 (n % 65536) := by
  rw [lenWord, place_zero_eq _ (by decide), BitVec.toNat_ofNat]

theorem txWord_eq (e : TxEntry) : txWord e = BitVec.ofNat 32 (2 ^ 31 * e.level.toNat + e.duration.toNat) := by
  have hlevel := e.level.toNat_le
  have hduration := e.duration.isLt
  have h0 : (place e.duration 0).toNat = e.duration.toNat := toNat_place_zero _ (by decide)
  have h31 := toNat_placeBit_or e.level 31 (place e.duration 0) (by omega) (by omega)
  apply BitVec.eq_of_toNat_eq
  rw [txWord, h31, h0, toNat_ofNat_of_fits (by omega)]

/-- The low field of a word is its value modulo the field's width. -/
theorem extractLsb'_zero_eq {w : Nat} (v : BitVec w) (n : Nat) : v.extractLsb' 0 n = BitVec.ofNat n v.toNat := by
  apply BitVec.eq_of_toNat_eq
  simp

/-! ## Reads and writes -/

theorem exec_busRead_of_some {s : State} {r : Reg} {w : Word} (h : s.readReg r = some w) :
    exec (.busRead r) s = .next { s with resp := .data w } :=
  execBusRead_of_some h

/-- A register that is no RX view, or any register while RX is valid, has a value. -/
theorem exists_readReg {s : State} {r : Reg} (h : isRxView r = true → s.rxValid = true) :
    ∃ w, s.readReg r = some w := by
  rw [← Option.ne_none_iff_exists']
  intro hnone
  obtain ⟨hview, hinvalid⟩ := readReg_eq_none.mp hnone
  exact absurd (h hview) (by simp [hinvalid])

theorem txData_of_some {s : State} {e : TxEntry} (h : s.txbuf[s.txIdx.toNat]? = some e) : s.txData = txWord e := by
  simp only [State.txData, h]

theorem txData_of_past {s : State} (h : s.txbuf.length ≤ s.txIdx.toNat) : s.txData = 0#32 := by
  simp only [State.txData, List.getElem?_eq_none h]

/-- A register that no write stores to keeps its value. -/
theorem exec_busWrite_ignored {r : Reg} (s : State) (w : Word)
    (h : r ∉ [.cmd, .argChar, .pulseIn, .valLo, .valHi, .txIdx, .rxRawIdx]) :
    exec (.busWrite r w) s = .next s := by
  cases r with
  | cmd | argChar | pulseIn | valLo | valHi | txIdx | rxRawIdx => simp at h
  | _ => rfl

/-! ## The obligations -/

/-- Settles O45, by the two cases of the push. -/
theorem argCharPushesOrOverflows : Obligations.ArgCharPushesOrOverflows := by
  intro s w
  rw [← extractLsb'_zero_eq w 8]
  rcases pushArg_cases (w.extractLsb' 0 8) s with ⟨hroom, hpush⟩ | ⟨hfull, hset⟩
  · exact ⟨fun _ => congrArg Host.Outcome.next hpush, fun hfull => absurd hroom (Nat.not_lt.mpr hfull)⟩
  · exact ⟨fun hroom => absurd hroom (Nat.not_lt.mpr hfull), fun _ => congrArg Host.Outcome.next hset⟩

/-- Settles O46: each register's word, as a number. -/
theorem busReadOfEveryPlainRegister : Obligations.BusReadOfEveryPlainRegister := by
  intro s
  have hcount : place (BitVec.ofNat 8 s.rom.length) 0 = BitVec.ofNat 32 (s.rom.length % 256) := by
    rw [place_zero_eq _ (by decide), BitVec.toNat_ofNat]
  have hread {r : Reg} {w v : Word} (h : s.readReg r = some w) (hw : w = v) :
      exec (.busRead r) s = .next { s with resp := .data v } :=
    exec_busRead_of_some (hw ▸ h)
  exact ⟨hread rfl rfl, hread rfl rfl, hread rfl rfl, fun _ => hread rfl rfl, hread rfl (statusWord_eq s),
    hread rfl rfl, hread rfl rfl, hread rfl (lenWord_eq _), hread rfl (lenWord_eq _),
    hread rfl (place_zero_eq _ (by decide)), hread rfl (place_zero_eq _ (by decide)), hread rfl hcount,
    hread rfl rfl, hread rfl rfl, hread rfl rfl, hread rfl (lenWord_eq _),
    hread rfl (place_zero_eq _ (by decide)), hread rfl (place_zero_eq _ (by decide)),
    fun e he => hread rfl ((txData_of_some he).trans (txWord_eq e)), fun hpast => hread rfl (txData_of_past hpast)⟩

/-- Settles O47: each view of a valid result, as a number; without a result there is none. -/
theorem busReadOfEveryRxView : Obligations.BusReadOfEveryRxView := by
  refine ⟨fun s x hx => ?_, fun s reg hrx hview => execBusRead_of_rxView hrx hview⟩
  have hread {r : Reg} {v : RxResult → Word} {w : Word} (h : s.readReg r = s.rx.map v) (hw : v x = w) :
      exec (.busRead r) s = .next { s with resp := .data w } :=
    exec_busRead_of_some (by rw [h, hx, ← hw]; rfl)
  refine ⟨hread rfl (place_zero_eq _ (by decide)), hread rfl rfl, hread rfl (place_zero_eq _ (by decide)),
    hread rfl ?_, hread rfl ?_, hread rfl (lenWord_eq _), fun d hd => hread rfl ?_, fun hpast => hread rfl ?_⟩
  · apply BitVec.eq_of_toNat_eq
    simp
  · apply BitVec.eq_of_toNat_eq
    simp [Nat.shiftRight_eq_div_pow]
  · rw [rawData, hd, Option.getD_some]
  · rw [rawData, List.getElem?_eq_none hpast, Option.getD_none]

/-- Settles O48: a read writes the response line alone, which no register shows. -/
theorem readsHaveNoSideEffect : Obligations.ReadsHaveNoSideEffect := by
  intro s reg hvalid
  obtain ⟨w, hw⟩ := exists_readReg hvalid
  have hagain : ({ s with resp := .data w } : State).readReg reg = some w := by
    rw [← hw]
    cases reg <;> rfl
  exact ⟨w, exec_busRead_of_some hw, exec_busRead_of_some hagain⟩

/-- Settles O49, by the register a write names. -/
theorem busWriteOfEveryRegister : Obligations.BusWriteOfEveryRegister := by
  refine ⟨fun base w => ⟨fun i hi => ?_, fun hnone => decode_illegal_cmd base hnone, decode_writeAccess base .argChar w,
    decode_writeAccess base .pulseIn w⟩, fun s w => ?_⟩
  · exact (decode_writeAccess base .cmd w).trans (decodeWrite_cmd hi)
  · rw [← extractLsb'_zero_eq w 16]
    exact ⟨rfl, rfl, rfl, rfl, fun _ hr => exec_busWrite_ignored s w hr⟩

end Sys2Proof.Machine
end
